-- ==== Sys2Proof/Word.lean ====
section
/-!
DEFINITION. The word types of OPSP-CPU: registers and addresses are 32 bits (R10, R40), memory is
byte addressed (R40), instructions are halfwords and words (R60).
-/

namespace Sys2Proof

/-- A register value or an address: 32 bits (R10, R40). -/
abbrev Word := BitVec 32

/-- A halfword: 16 bits (R45, R60). -/
abbrev Half := BitVec 16

/-- A byte of memory: 8 bits (R40). -/
abbrev Byte := BitVec 8

/-- The number of a general register, R0 to R15 (R11). -/
abbrev Reg := BitVec 4

/-- An accumulator as an instruction names it: A0 or A1 (R29, R64). -/
inductive Acc where
  | a0
  | a1
  deriving DecidableEq, Repr, Inhabited

end Sys2Proof
end

