-- ==== Sys2Proof/Config.lean ====
section
/-!
DEFINITION. What an implementation or a platform fixes and the spec leaves open (R4, 93 section 3), and the
free values: constants with no body, so that nothing can be proved of what they are.
-/

namespace Sys2Proof

/-- What one coprocessor instruction asks of the coprocessor it names (R260: `read`, `write`, `operate`). -/
inductive CoprocCommand where
  /-- MVFCP: move coprocessor register `reg` to a general register, with the operation bits `inst` (R262). -/
  | read (reg : BitVec 4) (inst : BitVec 8)
  /-- MVTCP: move `value` into coprocessor register `reg` (R261). -/
  | write (reg : BitVec 4) (inst : BitVec 8) (value : Word)
  /-- OPECP: execute `inst` on the coprocessor registers `dest` and `src` (R263). -/
  | operate (dest src : BitVec 4) (inst : BitVec 8)
  deriving DecidableEq, Repr, Inhabited

/-- A coprocessor that is present: the state `S` of the parameter COPROC (R260) as plain data.
The spec gives the coprocessor's registers no number, width or reset value (R35), so its contents are one
number, coded in a way only the platform knows. -/
structure Coproc where
  /-- Everything the coprocessor holds, its registers CPR among it (R35). -/
  content : Nat
  /-- The commands it answers with the coprocessor disable exception in this state (R260, R276). -/
  answersCDE : List CoprocCommand
  /-- Its interrupt request output `cpi(S)` (R260, R276). -/
  requestsCPI : Bool
  deriving DecidableEq, Repr, Inhabited

/-- FREE VALUE `any32` (R6): the n-th word that the spec leaves open. -/
opaque Config.freeWord : Nat → Word

/-- FREE VALUE `any64` within the 56 stored bits of an accumulator (R6, R167): the n-th. -/
opaque Config.freeAcc : Nat → BitVec 56

/-- FREE VALUE `any1` (R6, R77): the n-th condition bit that the spec leaves open. -/
opaque Config.freeBit : Nat → Bool

/-- PARAMETER `EIT_VECTOR` (R280), its open part: which word-aligned offset in the 64 KiB vector block belongs
to which EIT. A permutation, because R280 asks only that different EITs have different entries. -/
opaque Config.vectorSlot : Equiv.Perm (BitVec 14)

/-- PARAMETER `COPROC` (R260), the state part: what coprocessor `cpid` in the given state becomes after a
command it carries out. -/
opaque Config.coprocNext : BitVec 4 → Coproc → CoprocCommand → Coproc

/-- PARAMETER `COPROC` (R260), the value part: what coprocessor `cpid` in the given state answers to a command. -/
opaque Config.coprocValue : BitVec 4 → Coproc → CoprocCommand → Word

/-- PARAMETER `AT_MODE` (R26, R56): the address translation mode bit of MATM, fixed 0 by decision D24. -/
def Config.atMode : Bool := false

end Sys2Proof
end

