-- ==== Sys2Proof/Syntax.lean ====
section
/-!
DEFINITION. The instructions: one constructor per row of spec/opcode_table.json, in the table's order, with the
operands of that form (R62, R63, R64). Register operands are numbers, accumulators are names, and the immediates
and displacements are the fields as encoded (R67).
-/

namespace Sys2Proof

/-- The 135 encoding forms of the 115 instructions (R69, R72, R84). -/
inductive Instr where
  /-- `SUBV Rdest,Rsrc`: 0000 dddd 0000 ssss (R145). -/
  | subv (dest src : Reg)
  /-- `SUBX Rdest,Rsrc`: 0000 dddd 0001 ssss (R146). -/
  | subx (dest src : Reg)
  /-- `SUB Rdest,Rsrc`: 0000 dddd 0010 ssss (R144). -/
  | sub (dest src : Reg)
  /-- `NEG Rdest,Rsrc`: 0000 dddd 0011 ssss (R143). -/
  | neg (dest src : Reg)
  /-- `CMP Rsrc1,Rsrc2`: 0000 aaaa 0100 bbbb (R130). -/
  | cmp (src1 src2 : Reg)
  /-- `CMPU Rsrc1,Rsrc2`: 0000 aaaa 0101 bbbb (R133). -/
  | cmpu (src1 src2 : Reg)
  /-- `CMPEQ Rsrc1,Rsrc2`: 0000 aaaa 0110 bbbb (R131). -/
  | cmpeq (src1 src2 : Reg)
  /-- `CMPZ Rsrc`: 0000 0000 0111 ssss (R135). -/
  | cmpz (src : Reg)
  /-- `PCMPBZ Rsrc`: 0000 0011 0111 ssss (R136). -/
  | pcmpbz (src : Reg)
  /-- `ADDV Rdest,Rsrc`: 0000 dddd 1000 ssss (R140). -/
  | addv (dest src : Reg)
  /-- `ADDX Rdest,Rsrc`: 0000 dddd 1001 ssss (R142). -/
  | addx (dest src : Reg)
  /-- `ADD Rdest,Rsrc`: 0000 dddd 1010 ssss (R137). -/
  | add (dest src : Reg)
  /-- `NOT Rdest,Rsrc`: 0000 dddd 1011 ssss (R149). -/
  | not (dest src : Reg)
  /-- `AND Rdest,Rsrc`: 0000 dddd 1100 ssss (R147). -/
  | and (dest src : Reg)
  /-- `XOR Rdest,Rsrc`: 0000 dddd 1101 ssss (R152). -/
  | xor (dest src : Reg)
  /-- `OR Rdest,Rsrc`: 0000 dddd 1110 ssss (R150). -/
  | or (dest src : Reg)
  /-- `BTST #bitpos,Rsrc`: 0000 0ttt 1111 ssss (R222). -/
  | btst (bitpos : BitVec 3) (src : Reg)
  /-- `SRL Rdest,Rsrc`: 0001 dddd 0000 ssss (R180). -/
  | srl (dest src : Reg)
  /-- `SRA Rdest,Rsrc`: 0001 dddd 0010 ssss (R177). -/
  | sra (dest src : Reg)
  /-- `SLL Rdest,Rsrc`: 0001 dddd 0100 ssss (R174). -/
  | sll (dest src : Reg)
  /-- `MUL Rdest,Rsrc`: 0001 dddd 0110 ssss (R167). -/
  | mul (dest src : Reg)
  /-- `MV Rdest,Rsrc`: 0001 dddd 1000 ssss (R122). -/
  | mv (dest src : Reg)
  /-- `MVFC Rdest,CRsrc`: 0001 dddd 1001 ssss (R123). -/
  | mvfc (dest : Reg) (cr : BitVec 4)
  /-- `MVTC Rsrc,CRdest`: 0001 dddd 1010 ssss (R124). -/
  | mvtc (cr : BitVec 4) (src : Reg)
  /-- `JC Rsrc`: 0001 1100 1100 ssss (R205). -/
  | jc (src : Reg)
  /-- `JNC Rsrc`: 0001 1101 1100 ssss (R208). -/
  | jnc (src : Reg)
  /-- `JL Rsrc`: 0001 1110 1100 ssss (R206). -/
  | jl (src : Reg)
  /-- `JMP Rsrc`: 0001 1111 1100 ssss (R207). -/
  | jmp (src : Reg)
  /-- `RTE`: 0001 0000 1101 0110 (R226). -/
  | rte
  /-- `TRAP #imm4`: 0001 0000 1111 iiii (R225). -/
  | trap (imm4 : BitVec 4)
  /-- `STB Rsrc1,@Rsrc2`: 0010 aaaa 0000 bbbb (R108). -/
  | stb (src1 src2 : Reg)
  /-- `STB Rsrc1,@Rsrc2+`: 0010 aaaa 0001 bbbb (R108). -/
  | stbPost (src1 src2 : Reg)
  /-- `STH Rsrc1,@Rsrc2`: 0010 aaaa 0010 bbbb (R109). -/
  | sth (src1 src2 : Reg)
  /-- `STH Rsrc1,@Rsrc2+`: 0010 aaaa 0011 bbbb (R109). -/
  | sthPost (src1 src2 : Reg)
  /-- `ST Rsrc1,@Rsrc2`: 0010 aaaa 0100 bbbb (R107). -/
  | st (src1 src2 : Reg)
  /-- `UNLOCK Rsrc1,@Rsrc2`: 0010 aaaa 0101 bbbb (R110). -/
  | unlock (src1 src2 : Reg)
  /-- `ST Rsrc1,@+Rsrc2`: 0010 aaaa 0110 bbbb (R107). -/
  | stPreInc (src1 src2 : Reg)
  /-- `ST Rsrc1,@-Rsrc2`: 0010 aaaa 0111 bbbb (R107). -/
  | stPreDec (src1 src2 : Reg)
  /-- `LDB Rdest,@Rsrc`: 0010 dddd 1000 ssss (R102). -/
  | ldb (dest src : Reg)
  /-- `LDUB Rdest,@Rsrc`: 0010 dddd 1001 ssss (R103). -/
  | ldub (dest src : Reg)
  /-- `LDH Rdest,@Rsrc`: 0010 dddd 1010 ssss (R104). -/
  | ldh (dest src : Reg)
  /-- `LDUH Rdest,@Rsrc`: 0010 dddd 1011 ssss (R105). -/
  | lduh (dest src : Reg)
  /-- `LD Rdest,@Rsrc`: 0010 dddd 1100 ssss (R101). -/
  | ld (dest src : Reg)
  /-- `LOCK Rdest,@Rsrc`: 0010 dddd 1101 ssss (R106). -/
  | lock (dest src : Reg)
  /-- `LD Rdest,@Rsrc+`: 0010 dddd 1110 ssss (R101). -/
  | ldPost (dest src : Reg)
  /-- `MULHI Rsrc1,Rsrc2,Adest`: 0011 aaaa A000 bbbb (R238). -/
  | mulhi (src1 src2 : Reg) (a : Acc)
  /-- `MULLO Rsrc1,Rsrc2,Adest`: 0011 aaaa A001 bbbb (R239). -/
  | mullo (src1 src2 : Reg) (a : Acc)
  /-- `MULWHI Rsrc1,Rsrc2`: 0011 aaaa 0010 bbbb (R240). -/
  | mulwhi (src1 src2 : Reg)
  /-- `MULWLO Rsrc1,Rsrc2`: 0011 aaaa 0011 bbbb (R241). -/
  | mulwlo (src1 src2 : Reg)
  /-- `MACHI Rsrc1,Rsrc2,Adest`: 0011 aaaa A100 bbbb (R231). -/
  | machi (src1 src2 : Reg) (a : Acc)
  /-- `MACLO Rsrc1,Rsrc2,Adest`: 0011 aaaa A101 bbbb (R233). -/
  | maclo (src1 src2 : Reg) (a : Acc)
  /-- `MACWHI Rsrc1,Rsrc2`: 0011 aaaa 0110 bbbb (R234). -/
  | macwhi (src1 src2 : Reg)
  /-- `MACWLO Rsrc1,Rsrc2`: 0011 aaaa 0111 bbbb (R235). -/
  | macwlo (src1 src2 : Reg)
  /-- `ADDI Rdest,#imm8`: 0100 dddd iiii iiii (R139). -/
  | addi (dest : Reg) (imm8 : BitVec 8)
  /-- `SRLI Rdest,#imm5`: 0101 dddd 000i iiii (R182). -/
  | srli (dest : Reg) (imm5 : BitVec 5)
  /-- `SRAI Rdest,#imm5`: 0101 dddd 001i iiii (R179). -/
  | srai (dest : Reg) (imm5 : BitVec 5)
  /-- `SLLI Rdest,#imm5`: 0101 dddd 010i iiii (R176). -/
  | slli (dest : Reg) (imm5 : BitVec 5)
  /-- `MVTACHI Rsrc,Adest`: 0101 ssss 0111 DD00 (R246). -/
  | mvtachi (src : Reg) (dd : Acc)
  /-- `MVTACLO Rsrc,Adest`: 0101 ssss 0111 DD01 (R247). -/
  | mvtaclo (src : Reg) (dd : Acc)
  /-- `RACH Adest,Asrc,#imm1`: 0101 DD00 1000 SS0m (R249). -/
  | rach (dd ss : Acc) (imm1 : Nat)
  /-- `RAC Adest,Asrc,#imm1`: 0101 DD00 1001 SS0m (R248). -/
  | rac (dd ss : Acc) (imm1 : Nat)
  /-- `MULWU1 Rsrc1,Rsrc2`: 0101 aaaa 1010 bbbb (R242). -/
  | mulwu1 (src1 src2 : Reg)
  /-- `MACWU1 Rsrc1,Rsrc2`: 0101 aaaa 1011 bbbb (R236). -/
  | macwu1 (src1 src2 : Reg)
  /-- `MACLH1 Rsrc1,Rsrc2`: 0101 aaaa 1100 bbbb (R232). -/
  | maclh1 (src1 src2 : Reg)
  /-- `MSBLO Rsrc1,Rsrc2`: 0101 aaaa 1101 bbbb (R237). -/
  | msblo (src1 src2 : Reg)
  /-- `SADD`: 0101 0000 1110 0100 (R250). -/
  | sadd
  /-- `MVFACHI Rdest,Asrc`: 0101 dddd 1111 SS00 (R243). -/
  | mvfachi (dest : Reg) (ss : Acc)
  /-- `MVFACLO Rdest,Asrc`: 0101 dddd 1111 SS01 (R244). -/
  | mvfaclo (dest : Reg) (ss : Acc)
  /-- `MVFACMI Rdest,Asrc`: 0101 dddd 1111 SS10 (R245). -/
  | mvfacmi (dest : Reg) (ss : Acc)
  /-- `LDI Rdest,#imm8`: 0110 dddd iiii iiii (R121). -/
  | ldi8 (dest : Reg) (imm8 : BitVec 8)
  /-- `NOP`: 0111 0000 0000 0000 (R209). -/
  | nop
  /-- `SETPSW #imm8`: 0111 0001 iiii iiii (R224). -/
  | setpsw (imm8 : BitVec 8)
  /-- `CLRPSW #imm8`: 0111 0010 iiii iiii (R223). -/
  | clrpsw (imm8 : BitVec 8)
  /-- `SC`: 0111 0100 0000 0001 (R210). -/
  | sc
  /-- `SNC`: 0111 0101 0000 0001 (R211). -/
  | snc
  /-- `BCL pcdisp8`: 0111 1000 pppp pppp (R192). -/
  | bcl8 (pcdisp8 : BitVec 8)
  /-- `BNCL pcdisp8`: 0111 1001 pppp pppp (R201). -/
  | bncl8 (pcdisp8 : BitVec 8)
  /-- `BC pcdisp8`: 0111 1100 pppp pppp (R191). -/
  | bc8 (pcdisp8 : BitVec 8)
  /-- `BNC pcdisp8`: 0111 1101 pppp pppp (R200). -/
  | bnc8 (pcdisp8 : BitVec 8)
  /-- `BL pcdisp8`: 0111 1110 pppp pppp (R197). -/
  | bl8 (pcdisp8 : BitVec 8)
  /-- `BRA pcdisp8`: 0111 1111 pppp pppp (R204). -/
  | bra8 (pcdisp8 : BitVec 8)
  /-- `CMPI Rsrc,#imm16`: 1000 0000 0100 ssss iiii iiii iiii iiii (R132). -/
  | cmpi (src : Reg) (imm16 : Half)
  /-- `CMPUI Rsrc,#imm16`: 1000 0000 0101 ssss iiii iiii iiii iiii (R134). -/
  | cmpui (src : Reg) (imm16 : Half)
  /-- `SATB Rdest,Rsrc`: 1000 dddd 0110 ssss 0000 0011 0000 0000 (R251). -/
  | satb (dest src : Reg)
  /-- `SATH Rdest,Rsrc`: 1000 dddd 0110 ssss 0000 0010 0000 0000 (R252). -/
  | sath (dest src : Reg)
  /-- `ADDV3 Rdest,Rsrc,#imm16`: 1000 dddd 1000 ssss iiii iiii iiii iiii (R141). -/
  | addv3 (dest src : Reg) (imm16 : Half)
  /-- `ADD3 Rdest,Rsrc,#imm16`: 1000 dddd 1010 ssss iiii iiii iiii iiii (R138). -/
  | add3 (dest src : Reg) (imm16 : Half)
  /-- `AND3 Rdest,Rsrc,#imm16`: 1000 dddd 1100 ssss iiii iiii iiii iiii (R148). -/
  | and3 (dest src : Reg) (imm16 : Half)
  /-- `XOR3 Rdest,Rsrc,#imm16`: 1000 dddd 1101 ssss iiii iiii iiii iiii (R153). -/
  | xor3 (dest src : Reg) (imm16 : Half)
  /-- `OR3 Rdest,Rsrc,#imm16`: 1000 dddd 1110 ssss iiii iiii iiii iiii (R151). -/
  | or3 (dest src : Reg) (imm16 : Half)
  /-- `DIV Rdest,Rsrc`: 1001 dddd 0000 ssss 0000 0000 0000 0000 (R161). -/
  | div (dest src : Reg)
  /-- `DIVB Rdest,Rsrc`: 1001 dddd 0000 ssss 0000 0000 0001 1000 (R162). -/
  | divb (dest src : Reg)
  /-- `DIVH Rdest,Rsrc`: 1001 dddd 0000 ssss 0000 0000 0001 0000 (R163). -/
  | divh (dest src : Reg)
  /-- `DIVU Rdest,Rsrc`: 1001 dddd 0001 ssss 0000 0000 0000 0000 (R164). -/
  | divu (dest src : Reg)
  /-- `DIVUB Rdest,Rsrc`: 1001 dddd 0001 ssss 0000 0000 0001 1000 (R165). -/
  | divub (dest src : Reg)
  /-- `DIVUH Rdest,Rsrc`: 1001 dddd 0001 ssss 0000 0000 0001 0000 (R166). -/
  | divuh (dest src : Reg)
  /-- `REM Rdest,Rsrc`: 1001 dddd 0010 ssss 0000 0000 0000 0000 (R168). -/
  | rem (dest src : Reg)
  /-- `REMB Rdest,Rsrc`: 1001 dddd 0010 ssss 0000 0000 0001 1000 (R169). -/
  | remb (dest src : Reg)
  /-- `REMH Rdest,Rsrc`: 1001 dddd 0010 ssss 0000 0000 0001 0000 (R170). -/
  | remh (dest src : Reg)
  /-- `REMU Rdest,Rsrc`: 1001 dddd 0011 ssss 0000 0000 0000 0000 (R171). -/
  | remu (dest src : Reg)
  /-- `REMUB Rdest,Rsrc`: 1001 dddd 0011 ssss 0000 0000 0001 1000 (R172). -/
  | remub (dest src : Reg)
  /-- `REMUH Rdest,Rsrc`: 1001 dddd 0011 ssss 0000 0000 0001 0000 (R173). -/
  | remuh (dest src : Reg)
  /-- `SRL3 Rdest,Rsrc,#imm16`: 1001 dddd 1000 ssss iiii iiii iiii iiii (R181). -/
  | srl3 (dest src : Reg) (imm16 : Half)
  /-- `SRA3 Rdest,Rsrc,#imm16`: 1001 dddd 1010 ssss iiii iiii iiii iiii (R178). -/
  | sra3 (dest src : Reg) (imm16 : Half)
  /-- `SLL3 Rdest,Rsrc,#imm16`: 1001 dddd 1100 ssss iiii iiii iiii iiii (R175). -/
  | sll3 (dest src : Reg) (imm16 : Half)
  /-- `LDI Rdest,#imm16`: 1001 dddd 1111 0000 iiii iiii iiii iiii (R121). -/
  | ldi16 (dest : Reg) (imm16 : Half)
  /-- `STB Rsrc1,@(disp16,Rsrc2)`: 1010 aaaa 0000 bbbb qqqq qqqq qqqq qqqq (R108). -/
  | stbDisp (src1 src2 : Reg) (disp16 : Half)
  /-- `STH Rsrc1,@(disp16,Rsrc2)`: 1010 aaaa 0010 bbbb qqqq qqqq qqqq qqqq (R109). -/
  | sthDisp (src1 src2 : Reg) (disp16 : Half)
  /-- `ST Rsrc1,@(disp16,Rsrc2)`: 1010 aaaa 0100 bbbb qqqq qqqq qqqq qqqq (R107). -/
  | stDisp (src1 src2 : Reg) (disp16 : Half)
  /-- `BSET #bitpos,@(disp16,Rsrc)`: 1010 0ttt 0110 ssss qqqq qqqq qqqq qqqq (R221). -/
  | bset (bitpos : BitVec 3) (src : Reg) (disp16 : Half)
  /-- `BCLR #bitpos,@(disp16,Rsrc)`: 1010 0ttt 0111 ssss qqqq qqqq qqqq qqqq (R220). -/
  | bclr (bitpos : BitVec 3) (src : Reg) (disp16 : Half)
  /-- `LDB Rdest,@(disp16,Rsrc)`: 1010 dddd 1000 ssss qqqq qqqq qqqq qqqq (R102). -/
  | ldbDisp (dest src : Reg) (disp16 : Half)
  /-- `LDUB Rdest,@(disp16,Rsrc)`: 1010 dddd 1001 ssss qqqq qqqq qqqq qqqq (R103). -/
  | ldubDisp (dest src : Reg) (disp16 : Half)
  /-- `LDH Rdest,@(disp16,Rsrc)`: 1010 dddd 1010 ssss qqqq qqqq qqqq qqqq (R104). -/
  | ldhDisp (dest src : Reg) (disp16 : Half)
  /-- `LDUH Rdest,@(disp16,Rsrc)`: 1010 dddd 1011 ssss qqqq qqqq qqqq qqqq (R105). -/
  | lduhDisp (dest src : Reg) (disp16 : Half)
  /-- `LD Rdest,@(disp16,Rsrc)`: 1010 dddd 1100 ssss qqqq qqqq qqqq qqqq (R101). -/
  | ldDisp (dest src : Reg) (disp16 : Half)
  /-- `BEQ Rsrc1,Rsrc2,pcdisp16`: 1011 aaaa 0000 bbbb pppp pppp pppp pppp (R193). -/
  | beq (src1 src2 : Reg) (pcdisp16 : Half)
  /-- `BNE Rsrc1,Rsrc2,pcdisp16`: 1011 aaaa 0001 bbbb pppp pppp pppp pppp (R202). -/
  | bne (src1 src2 : Reg) (pcdisp16 : Half)
  /-- `BEQZ Rsrc,pcdisp16`: 1011 0000 1000 ssss pppp pppp pppp pppp (R194). -/
  | beqz (src : Reg) (pcdisp16 : Half)
  /-- `BNEZ Rsrc,pcdisp16`: 1011 0000 1001 ssss pppp pppp pppp pppp (R203). -/
  | bnez (src : Reg) (pcdisp16 : Half)
  /-- `BLTZ Rsrc,pcdisp16`: 1011 0000 1010 ssss pppp pppp pppp pppp (R199). -/
  | bltz (src : Reg) (pcdisp16 : Half)
  /-- `BGEZ Rsrc,pcdisp16`: 1011 0000 1011 ssss pppp pppp pppp pppp (R195). -/
  | bgez (src : Reg) (pcdisp16 : Half)
  /-- `BLEZ Rsrc,pcdisp16`: 1011 0000 1100 ssss pppp pppp pppp pppp (R198). -/
  | blez (src : Reg) (pcdisp16 : Half)
  /-- `BGTZ Rsrc,pcdisp16`: 1011 0000 1101 ssss pppp pppp pppp pppp (R196). -/
  | bgtz (src : Reg) (pcdisp16 : Half)
  /-- `MVFCP Rdest,CPRsrc(num)`: 1101 dddd 0101 ssss cccc 0000 nnnn nnnn (R262). -/
  | mvfcp (dest : Reg) (cprSrc cpid : BitVec 4) (inst : BitVec 8)
  /-- `MVTCP Rsrc,CPRdest(num)`: 1101 ssss 0110 dddd cccc 0000 nnnn nnnn (R261). -/
  | mvtcp (src : Reg) (cprDest cpid : BitVec 4) (inst : BitVec 8)
  /-- `OPECP CPRdest(num),CPRsrc(num)`: 1101 dddd 0111 ssss cccc 0000 nnnn nnnn (R263). -/
  | opecp (cprDest cprSrc cpid : BitVec 4) (inst : BitVec 8)
  /-- `SETH Rdest,#imm16`: 1101 dddd 1100 0000 iiii iiii iiii iiii (R125). -/
  | seth (dest : Reg) (imm16 : Half)
  /-- `LD24 Rdest,#imm24`: 1110 dddd iiii iiii iiii iiii iiii iiii (R120). -/
  | ld24 (dest : Reg) (imm24 : BitVec 24)
  /-- `BCL pcdisp24`: 1111 1000 pppp pppp pppp pppp pppp pppp (R192). -/
  | bcl24 (pcdisp24 : BitVec 24)
  /-- `BNCL pcdisp24`: 1111 1001 pppp pppp pppp pppp pppp pppp (R201). -/
  | bncl24 (pcdisp24 : BitVec 24)
  /-- `BC pcdisp24`: 1111 1100 pppp pppp pppp pppp pppp pppp (R191). -/
  | bc24 (pcdisp24 : BitVec 24)
  /-- `BNC pcdisp24`: 1111 1101 pppp pppp pppp pppp pppp pppp (R200). -/
  | bnc24 (pcdisp24 : BitVec 24)
  /-- `BL pcdisp24`: 1111 1110 pppp pppp pppp pppp pppp pppp (R197). -/
  | bl24 (pcdisp24 : BitVec 24)
  /-- `BRA pcdisp24`: 1111 1111 pppp pppp pppp pppp pppp pppp (R204). -/
  | bra24 (pcdisp24 : BitVec 24)
  deriving DecidableEq, Repr

end Sys2Proof
end

