-- ==== Sys2Proof/WellFormed.lean ====
section
/-!
DEFINITION. The one check on an instruction's operands that their types do not already make: the written
immediate of RAC and RACH is 1 or 2 (R248, R249). Every other operand has exactly the values of its field.
-/

namespace Sys2Proof

/-- The immediate `imm1` of RAC and RACH, as written: "imm1 = 1, 2" (R248, R249). -/
def Instr.roundShiftOk (n : Nat) : Bool := n == 1 || n == 2

/-- An instruction that has an encoding. -/
def Instr.wellFormed : Instr → Bool
  | .rac _ _ n => Instr.roundShiftOk n
  | .rach _ _ n => Instr.roundShiftOk n
  | _ => true

end Sys2Proof
end

