-- ==== Sys2Proof/Decode.lean ====
section
/-!
DEFINITION. Decoding and encoding (30_encoding.md). The decoder follows the two opcode maps, R69 for halfwords and
R72 for words, and matches every constant bit (R80); what the maps do not list is reserved (R71) and is rejected by
name. The encoder is written from the same maps.
-/

namespace Sys2Proof

/-! ## The fields of a halfword and of a word (R62, R63), named by the manual's bit numbers -/

/-- Bits 0-3 of a halfword: `op1`. -/
def opField (h : Half) : BitVec 4 := h.extractLsb' 12 4

/-- Bits 4-7 of a halfword: the field R1. -/
def r1Field (h : Half) : BitVec 4 := h.extractLsb' 8 4

/-- Bits 8-11 of a halfword: `op2`. -/
def op2Field (h : Half) : BitVec 4 := h.extractLsb' 4 4

/-- Bits 12-15 of a halfword: the field R2. -/
def r2Field (h : Half) : BitVec 4 := h.extractLsb' 0 4

/-- Bits 8-15 of a halfword: an 8-bit immediate or displacement. -/
def imm8Field (h : Half) : BitVec 8 := h.extractLsb' 0 8

/-- Bits 11-15 of a halfword: a shift count. -/
def imm5Field (h : Half) : BitVec 5 := h.extractLsb' 0 5

/-- Bits 5-7 of a halfword: a bit position. -/
def bitposField (h : Half) : BitVec 3 := h.extractLsb' 8 3

/-- Bits 0-15 of a word: its upper halfword. -/
def upperHalf (w : Word) : Half := w.extractLsb' 16 16

/-- Bits 16-31 of a word: its lower halfword, a 16-bit immediate or displacement. -/
def lowerHalf (w : Word) : Half := w.extractLsb' 0 16

/-- Bits 8-31 of a word: a 24-bit immediate or displacement. -/
def imm24Field (w : Word) : BitVec 24 := w.extractLsb' 0 24

/-- Bits 16-19 of a coprocessor word (R260). -/
def cpidField (w : Word) : BitVec 4 := w.extractLsb' 12 4

/-- Bits 20-23 of a coprocessor word, the constant 0000 (R260). -/
def coprocConstField (w : Word) : BitVec 4 := w.extractLsb' 8 4

/-- Bits 24-31 of a coprocessor word (R260). -/
def instField (w : Word) : BitVec 8 := w.extractLsb' 0 8

/-- Bit 0 of a halfword: 1 for a 32-bit instruction, or for the lower member of a parallel pair (R65). -/
def msb (h : Half) : Bool := h.getLsbD 15

/-! ## Halfwords: the opcode map of R69 -/

/-- The row `0000 ....` of R69. -/
def decode0 (h : Half) : Option Instr :=
  let d := r1Field h
  let s := r2Field h
  match (op2Field h).toNat with
  | 0 => some (.subv d s)
  | 1 => some (.subx d s)
  | 2 => some (.sub d s)
  | 3 => some (.neg d s)
  | 4 => some (.cmp d s)
  | 5 => some (.cmpu d s)
  | 6 => some (.cmpeq d s)
  | 7 => match d.toNat with
    | 0 => some (.cmpz s)
    | 3 => some (.pcmpbz s)
    | _ => none
  | 8 => some (.addv d s)
  | 9 => some (.addx d s)
  | 10 => some (.add d s)
  | 11 => some (.not d s)
  | 12 => some (.and d s)
  | 13 => some (.xor d s)
  | 14 => some (.or d s)
  | 15 => if d.getLsbD 3 then none else some (.btst (bitposField h) s)
  | _ => none

/-- The row `0001 ....` of R69. -/
def decode1 (h : Half) : Option Instr :=
  let d := r1Field h
  let s := r2Field h
  match (op2Field h).toNat with
  | 0 => some (.srl d s)
  | 2 => some (.sra d s)
  | 4 => some (.sll d s)
  | 6 => some (.mul d s)
  | 8 => some (.mv d s)
  | 9 => some (.mvfc d s)
  | 10 => some (.mvtc d s)
  | 12 => match d.toNat with
    | 12 => some (.jc s)
    | 13 => some (.jnc s)
    | 14 => some (.jl s)
    | 15 => some (.jmp s)
    | _ => none
  | 13 => match d.toNat, s.toNat with
    | 0, 6 => some .rte
    | _, _ => none
  | 15 => match d.toNat with
    | 0 => some (.trap s)
    | _ => none
  | _ => none

/-- The row `0010 ....` of R69. -/
def decode2 (h : Half) : Option Instr :=
  let d := r1Field h
  let s := r2Field h
  match (op2Field h).toNat with
  | 0 => some (.stb d s)
  | 1 => some (.stbPost d s)
  | 2 => some (.sth d s)
  | 3 => some (.sthPost d s)
  | 4 => some (.st d s)
  | 5 => some (.unlock d s)
  | 6 => some (.stPreInc d s)
  | 7 => some (.stPreDec d s)
  | 8 => some (.ldb d s)
  | 9 => some (.ldub d s)
  | 10 => some (.ldh d s)
  | 11 => some (.lduh d s)
  | 12 => some (.ld d s)
  | 13 => some (.lock d s)
  | 14 => some (.ldPost d s)
  | _ => none

/-- The row `0011 ....` of R69: bit 8 selects the accumulator where the instruction names one. -/
def decode3 (h : Half) : Option Instr :=
  let s1 := r1Field h
  let s2 := r2Field h
  match (op2Field h).toNat with
  | 0 => some (.mulhi s1 s2 .a0)
  | 1 => some (.mullo s1 s2 .a0)
  | 2 => some (.mulwhi s1 s2)
  | 3 => some (.mulwlo s1 s2)
  | 4 => some (.machi s1 s2 .a0)
  | 5 => some (.maclo s1 s2 .a0)
  | 6 => some (.macwhi s1 s2)
  | 7 => some (.macwlo s1 s2)
  | 8 => some (.mulhi s1 s2 .a1)
  | 9 => some (.mullo s1 s2 .a1)
  | 12 => some (.machi s1 s2 .a1)
  | 13 => some (.maclo s1 s2 .a1)
  | _ => none

/-- The 4-bit field `dd00` of RAC and RACH: which accumulator is the destination (R70). -/
def accOfR1 (d : BitVec 4) : Option Acc :=
  match d.toNat with
  | 0 => some .a0
  | 4 => some .a1
  | _ => none

/-- RAC and RACH: `0101 dd00 100x ss0i`, i coding the written immediate 1 or 2 (R70, R248). -/
def decodeRound (mk : Acc → Acc → Nat → Instr) (h : Half) : Option Instr :=
  match accOfR1 (r1Field h), (r2Field h).toNat with
  | some dd, 0 => some (mk dd .a0 1)
  | some dd, 1 => some (mk dd .a0 2)
  | some dd, 4 => some (mk dd .a1 1)
  | some dd, 5 => some (mk dd .a1 2)
  | _, _ => none

/-- The row `0101 ....` of R69. -/
def decode5 (h : Half) : Option Instr :=
  let d := r1Field h
  let s := r2Field h
  match (op2Field h).toNat with
  | 0 => some (.srli d (imm5Field h))
  | 1 => some (.srli d (imm5Field h))
  | 2 => some (.srai d (imm5Field h))
  | 3 => some (.srai d (imm5Field h))
  | 4 => some (.slli d (imm5Field h))
  | 5 => some (.slli d (imm5Field h))
  | 7 => match s.toNat with
    | 0 => some (.mvtachi d .a0)
    | 1 => some (.mvtaclo d .a0)
    | 4 => some (.mvtachi d .a1)
    | 5 => some (.mvtaclo d .a1)
    | _ => none
  | 8 => decodeRound .rach h
  | 9 => decodeRound .rac h
  | 10 => some (.mulwu1 d s)
  | 11 => some (.macwu1 d s)
  | 12 => some (.maclh1 d s)
  | 13 => some (.msblo d s)
  | 14 => match d.toNat, s.toNat with
    | 0, 4 => some .sadd
    | _, _ => none
  | 15 => match s.toNat with
    | 0 => some (.mvfachi d .a0)
    | 1 => some (.mvfaclo d .a0)
    | 2 => some (.mvfacmi d .a0)
    | 4 => some (.mvfachi d .a1)
    | 5 => some (.mvfaclo d .a1)
    | 6 => some (.mvfacmi d .a1)
    | _ => none
  | _ => none

/-- The row `0111 ....` of R69. -/
def decode7 (h : Half) : Option Instr :=
  let c := imm8Field h
  match (r1Field h).toNat with
  | 0 => if c = 0 then some .nop else none
  | 1 => some (.setpsw c)
  | 2 => some (.clrpsw c)
  | 4 => if c = 1 then some .sc else none
  | 5 => if c = 1 then some .snc else none
  | 8 => some (.bcl8 c)
  | 9 => some (.bncl8 c)
  | 12 => some (.bc8 c)
  | 13 => some (.bnc8 c)
  | 14 => some (.bl8 c)
  | 15 => some (.bra8 c)
  | _ => none

/-- The 16-bit instruction of a halfword whose MSB is 0; `none` is a reserved encoding (R69, R71). -/
def decode16 (h : Half) : Option Instr :=
  match (opField h).toNat with
  | 0 => decode0 h
  | 1 => decode1 h
  | 2 => decode2 h
  | 3 => decode3 h
  | 4 => some (.addi (r1Field h) (imm8Field h))
  | 5 => decode5 h
  | 6 => some (.ldi8 (r1Field h) (imm8Field h))
  | 7 => decode7 h
  | _ => none

/-! ## Words: the opcode map of R72 -/

/-- The row `1000 ....` of R72. -/
def decode8 (w : Word) : Option Instr :=
  let d := r1Field (upperHalf w)
  let s := r2Field (upperHalf w)
  let c := lowerHalf w
  match (op2Field (upperHalf w)).toNat with
  | 4 => if d = 0 then some (.cmpi s c) else none
  | 5 => if d = 0 then some (.cmpui s c) else none
  | 6 => match c.toNat with
    | 0x0300 => some (.satb d s)
    | 0x0200 => some (.sath d s)
    | _ => none
  | 8 => some (.addv3 d s c)
  | 10 => some (.add3 d s c)
  | 12 => some (.and3 d s c)
  | 13 => some (.xor3 d s c)
  | 14 => some (.or3 d s c)
  | _ => none

/-- The DIV family's low half: word 0x0000, byte 0x0018, halfword 0x0010 (R160). -/
def decodeDivide (word byte half : Instr) (c : Half) : Option Instr :=
  match c.toNat with
  | 0x0000 => some word
  | 0x0018 => some byte
  | 0x0010 => some half
  | _ => none

/-- The row `1001 ....` of R72. -/
def decode9 (w : Word) : Option Instr :=
  let d := r1Field (upperHalf w)
  let s := r2Field (upperHalf w)
  let c := lowerHalf w
  match (op2Field (upperHalf w)).toNat with
  | 0 => decodeDivide (.div d s) (.divb d s) (.divh d s) c
  | 1 => decodeDivide (.divu d s) (.divub d s) (.divuh d s) c
  | 2 => decodeDivide (.rem d s) (.remb d s) (.remh d s) c
  | 3 => decodeDivide (.remu d s) (.remub d s) (.remuh d s) c
  | 8 => some (.srl3 d s c)
  | 10 => some (.sra3 d s c)
  | 12 => some (.sll3 d s c)
  | 15 => if s = 0 then some (.ldi16 d c) else none
  | _ => none

/-- The row `1010 ....` of R72. -/
def decodeA (w : Word) : Option Instr :=
  let d := r1Field (upperHalf w)
  let s := r2Field (upperHalf w)
  let c := lowerHalf w
  match (op2Field (upperHalf w)).toNat with
  | 0 => some (.stbDisp d s c)
  | 2 => some (.sthDisp d s c)
  | 4 => some (.stDisp d s c)
  | 6 => if d.getLsbD 3 then none else some (.bset (bitposField (upperHalf w)) s c)
  | 7 => if d.getLsbD 3 then none else some (.bclr (bitposField (upperHalf w)) s c)
  | 8 => some (.ldbDisp d s c)
  | 9 => some (.ldubDisp d s c)
  | 10 => some (.ldhDisp d s c)
  | 11 => some (.lduhDisp d s c)
  | 12 => some (.ldDisp d s c)
  | _ => none

/-- The row `1011 ....` of R72. -/
def decodeB (w : Word) : Option Instr :=
  let d := r1Field (upperHalf w)
  let s := r2Field (upperHalf w)
  let c := lowerHalf w
  match (op2Field (upperHalf w)).toNat with
  | 0 => some (.beq d s c)
  | 1 => some (.bne d s c)
  | 8 => if d = 0 then some (.beqz s c) else none
  | 9 => if d = 0 then some (.bnez s c) else none
  | 10 => if d = 0 then some (.bltz s c) else none
  | 11 => if d = 0 then some (.bgez s c) else none
  | 12 => if d = 0 then some (.blez s c) else none
  | 13 => if d = 0 then some (.bgtz s c) else none
  | _ => none

/-- The row `1101 ....` of R72: SETH and the coprocessor instructions (R260). -/
def decodeD (w : Word) : Option Instr :=
  let d := r1Field (upperHalf w)
  let s := r2Field (upperHalf w)
  match (op2Field (upperHalf w)).toNat with
  | 5 => if coprocConstField w = 0 then some (.mvfcp d s (cpidField w) (instField w)) else none
  | 6 => if coprocConstField w = 0 then some (.mvtcp d s (cpidField w) (instField w)) else none
  | 7 => if coprocConstField w = 0 then some (.opecp d s (cpidField w) (instField w)) else none
  | 12 => if s = 0 then some (.seth d (lowerHalf w)) else none
  | _ => none

/-- The row `1111 ....` of R72. -/
def decodeF (w : Word) : Option Instr :=
  let c := imm24Field w
  match (r1Field (upperHalf w)).toNat with
  | 8 => some (.bcl24 c)
  | 9 => some (.bncl24 c)
  | 12 => some (.bc24 c)
  | 13 => some (.bnc24 c)
  | 14 => some (.bl24 c)
  | 15 => some (.bra24 c)
  | _ => none

/-- The 32-bit instruction of a word whose MSB is 1; `none` is a reserved encoding (R72, R71). -/
def decode32 (w : Word) : Option Instr :=
  match (opField (upperHalf w)).toNat with
  | 8 => decode8 w
  | 9 => decode9 w
  | 10 => decodeA w
  | 11 => decodeB w
  | 13 => decodeD w
  | 14 => some (.ld24 (r1Field (upperHalf w)) (imm24Field w))
  | 15 => decodeF w
  | _ => none

/-! ## Bytes -/

/-- Why a list of bytes is no instruction. -/
inductive DecodeReject where
  /-- Fewer bytes than the instruction's length. Raised by `decodeBytes`. -/
  | truncated
  /-- A halfword that R69 does not list (R71). -/
  | reservedHalf (h : Half)
  /-- A word that R72 does not list (R71). -/
  | reservedWord (w : Word)
  deriving DecidableEq, Repr

/-- The instruction at the head of a list of bytes in big-endian order (R44), and the bytes after it. The
first bit tells the length (R65). -/
def decodeBytes : List Byte → Except DecodeReject (Instr × List Byte)
  | b0 :: b1 :: rest =>
    let h : Half := b0 ++ b1
    if msb h then
      match rest with
      | b2 :: b3 :: rest' =>
        let w : Word := h ++ (b2 ++ b3 : Half)
        match decode32 w with
        | some i => .ok (i, rest')
        | none => .error (.reservedWord w)
      | _ => .error .truncated
    else
      match decode16 h with
      | some i => .ok (i, rest)
      | none => .error (.reservedHalf h)
  | _ => .error .truncated

/-! ## The encoder -/

/-- The bits of an instruction: a halfword or a word (R60). -/
inductive Code where
  | half (h : Half)
  | word (w : Word)
  deriving DecidableEq, Repr

/-- The bytes of an instruction in memory, lowest address first (R44). -/
def Code.bytes : Code → List Byte
  | .half h => [h.extractLsb' 8 8, h.extractLsb' 0 8]
  | .word w => [w.extractLsb' 24 8, w.extractLsb' 16 8, w.extractLsb' 8 8, w.extractLsb' 0 8]

/-- The format 16-RR: four fields of four bits (R62). -/
def pack16 (a b c d : BitVec 4) : Half := a ++ b ++ c ++ d

/-- The formats 16-RI8 and 16-B8 (R62). -/
def pack16Imm8 (a b : BitVec 4) (c : BitVec 8) : Half := a ++ b ++ c

/-- The immediate shifts: `0101 dest 0ss imm5` (R62). -/
def pack16Imm5 (a b : BitVec 4) (k : BitVec 3) (c : BitVec 5) : Half := a ++ b ++ k ++ c

/-- The format 32-RRI16 (R63). -/
def pack32 (a b c d : BitVec 4) (k : Half) : Word := (pack16 a b c d) ++ k

/-- The formats 32-RI24 and 32-B24 (R63). -/
def pack32Imm24 (a b : BitVec 4) (k : BitVec 24) : Word := a ++ b ++ k

/-- The coprocessor format: `1101 r1 op2 r2 | cpid 0000 inst` (R260). -/
def packCoproc (r1 op2 r2 cpid : BitVec 4) (inst : BitVec 8) : Word :=
  (pack16 13 r1 op2 r2) ++ (cpid ++ (0 : BitVec 4) ++ inst : Half)

/-- A bit position in the field R1: `0` and three bits (R62). -/
def bitposR1 (b : BitVec 3) : BitVec 4 := (0 : BitVec 1) ++ b

/-- Bit 8 of MULHI, MULLO, MACHI and MACLO: the accumulator, in front of a 3-bit sub-opcode (R64). -/
def accOp2 (a : Acc) (k : BitVec 3) : BitVec 4 :=
  match a with
  | .a0 => (0 : BitVec 1) ++ k
  | .a1 => (1 : BitVec 1) ++ k

/-- The 2-bit accumulator field in front of a 2-bit sub-opcode (R64). -/
def accR2 (a : Acc) (k : BitVec 2) : BitVec 4 :=
  match a with
  | .a0 => (0 : BitVec 2) ++ k
  | .a1 => (1 : BitVec 2) ++ k

/-- The code of the written immediate of RAC and RACH: 1 is coded 0, 2 is coded 1 (R67). -/
def roundCode (n : Nat) : BitVec 2 := if n = 2 then 1 else 0

/-- The encoding of an instruction (R69, R72). -/
def encode : Instr → Code
  | .subv dest src => .half (pack16 0 dest 0 src)
  | .subx dest src => .half (pack16 0 dest 1 src)
  | .sub dest src => .half (pack16 0 dest 2 src)
  | .neg dest src => .half (pack16 0 dest 3 src)
  | .cmp src1 src2 => .half (pack16 0 src1 4 src2)
  | .cmpu src1 src2 => .half (pack16 0 src1 5 src2)
  | .cmpeq src1 src2 => .half (pack16 0 src1 6 src2)
  | .cmpz src => .half (pack16 0 0 7 src)
  | .pcmpbz src => .half (pack16 0 3 7 src)
  | .addv dest src => .half (pack16 0 dest 8 src)
  | .addx dest src => .half (pack16 0 dest 9 src)
  | .add dest src => .half (pack16 0 dest 10 src)
  | .not dest src => .half (pack16 0 dest 11 src)
  | .and dest src => .half (pack16 0 dest 12 src)
  | .xor dest src => .half (pack16 0 dest 13 src)
  | .or dest src => .half (pack16 0 dest 14 src)
  | .btst bitpos src => .half (pack16 0 (bitposR1 bitpos) 15 src)
  | .srl dest src => .half (pack16 1 dest 0 src)
  | .sra dest src => .half (pack16 1 dest 2 src)
  | .sll dest src => .half (pack16 1 dest 4 src)
  | .mul dest src => .half (pack16 1 dest 6 src)
  | .mv dest src => .half (pack16 1 dest 8 src)
  | .mvfc dest cr => .half (pack16 1 dest 9 cr)
  | .mvtc cr src => .half (pack16 1 cr 10 src)
  | .jc src => .half (pack16 1 12 12 src)
  | .jnc src => .half (pack16 1 13 12 src)
  | .jl src => .half (pack16 1 14 12 src)
  | .jmp src => .half (pack16 1 15 12 src)
  | .rte => .half (pack16 1 0 13 6)
  | .trap imm4 => .half (pack16 1 0 15 imm4)
  | .stb src1 src2 => .half (pack16 2 src1 0 src2)
  | .stbPost src1 src2 => .half (pack16 2 src1 1 src2)
  | .sth src1 src2 => .half (pack16 2 src1 2 src2)
  | .sthPost src1 src2 => .half (pack16 2 src1 3 src2)
  | .st src1 src2 => .half (pack16 2 src1 4 src2)
  | .unlock src1 src2 => .half (pack16 2 src1 5 src2)
  | .stPreInc src1 src2 => .half (pack16 2 src1 6 src2)
  | .stPreDec src1 src2 => .half (pack16 2 src1 7 src2)
  | .ldb dest src => .half (pack16 2 dest 8 src)
  | .ldub dest src => .half (pack16 2 dest 9 src)
  | .ldh dest src => .half (pack16 2 dest 10 src)
  | .lduh dest src => .half (pack16 2 dest 11 src)
  | .ld dest src => .half (pack16 2 dest 12 src)
  | .lock dest src => .half (pack16 2 dest 13 src)
  | .ldPost dest src => .half (pack16 2 dest 14 src)
  | .mulhi src1 src2 a => .half (pack16 3 src1 (accOp2 a 0) src2)
  | .mullo src1 src2 a => .half (pack16 3 src1 (accOp2 a 1) src2)
  | .mulwhi src1 src2 => .half (pack16 3 src1 2 src2)
  | .mulwlo src1 src2 => .half (pack16 3 src1 3 src2)
  | .machi src1 src2 a => .half (pack16 3 src1 (accOp2 a 4) src2)
  | .maclo src1 src2 a => .half (pack16 3 src1 (accOp2 a 5) src2)
  | .macwhi src1 src2 => .half (pack16 3 src1 6 src2)
  | .macwlo src1 src2 => .half (pack16 3 src1 7 src2)
  | .addi dest imm8 => .half (pack16Imm8 4 dest imm8)
  | .srli dest imm5 => .half (pack16Imm5 5 dest 0 imm5)
  | .srai dest imm5 => .half (pack16Imm5 5 dest 1 imm5)
  | .slli dest imm5 => .half (pack16Imm5 5 dest 2 imm5)
  | .mvtachi src dd => .half (pack16 5 src 7 (accR2 dd 0))
  | .mvtaclo src dd => .half (pack16 5 src 7 (accR2 dd 1))
  | .rach dd ss imm1 => .half (pack16 5 (accR2 dd 0) 8 (accR2 ss (roundCode imm1)))
  | .rac dd ss imm1 => .half (pack16 5 (accR2 dd 0) 9 (accR2 ss (roundCode imm1)))
  | .mulwu1 src1 src2 => .half (pack16 5 src1 10 src2)
  | .macwu1 src1 src2 => .half (pack16 5 src1 11 src2)
  | .maclh1 src1 src2 => .half (pack16 5 src1 12 src2)
  | .msblo src1 src2 => .half (pack16 5 src1 13 src2)
  | .sadd => .half (pack16 5 0 14 4)
  | .mvfachi dest ss => .half (pack16 5 dest 15 (accR2 ss 0))
  | .mvfaclo dest ss => .half (pack16 5 dest 15 (accR2 ss 1))
  | .mvfacmi dest ss => .half (pack16 5 dest 15 (accR2 ss 2))
  | .ldi8 dest imm8 => .half (pack16Imm8 6 dest imm8)
  | .nop => .half (pack16 7 0 0 0)
  | .setpsw imm8 => .half (pack16Imm8 7 1 imm8)
  | .clrpsw imm8 => .half (pack16Imm8 7 2 imm8)
  | .sc => .half (pack16 7 4 0 1)
  | .snc => .half (pack16 7 5 0 1)
  | .bcl8 pcdisp8 => .half (pack16Imm8 7 8 pcdisp8)
  | .bncl8 pcdisp8 => .half (pack16Imm8 7 9 pcdisp8)
  | .bc8 pcdisp8 => .half (pack16Imm8 7 12 pcdisp8)
  | .bnc8 pcdisp8 => .half (pack16Imm8 7 13 pcdisp8)
  | .bl8 pcdisp8 => .half (pack16Imm8 7 14 pcdisp8)
  | .bra8 pcdisp8 => .half (pack16Imm8 7 15 pcdisp8)
  | .cmpi src imm16 => .word (pack32 8 0 4 src imm16)
  | .cmpui src imm16 => .word (pack32 8 0 5 src imm16)
  | .satb dest src => .word (pack32 8 dest 6 src 0x0300)
  | .sath dest src => .word (pack32 8 dest 6 src 0x0200)
  | .addv3 dest src imm16 => .word (pack32 8 dest 8 src imm16)
  | .add3 dest src imm16 => .word (pack32 8 dest 10 src imm16)
  | .and3 dest src imm16 => .word (pack32 8 dest 12 src imm16)
  | .xor3 dest src imm16 => .word (pack32 8 dest 13 src imm16)
  | .or3 dest src imm16 => .word (pack32 8 dest 14 src imm16)
  | .div dest src => .word (pack32 9 dest 0 src 0x0000)
  | .divb dest src => .word (pack32 9 dest 0 src 0x0018)
  | .divh dest src => .word (pack32 9 dest 0 src 0x0010)
  | .divu dest src => .word (pack32 9 dest 1 src 0x0000)
  | .divub dest src => .word (pack32 9 dest 1 src 0x0018)
  | .divuh dest src => .word (pack32 9 dest 1 src 0x0010)
  | .rem dest src => .word (pack32 9 dest 2 src 0x0000)
  | .remb dest src => .word (pack32 9 dest 2 src 0x0018)
  | .remh dest src => .word (pack32 9 dest 2 src 0x0010)
  | .remu dest src => .word (pack32 9 dest 3 src 0x0000)
  | .remub dest src => .word (pack32 9 dest 3 src 0x0018)
  | .remuh dest src => .word (pack32 9 dest 3 src 0x0010)
  | .srl3 dest src imm16 => .word (pack32 9 dest 8 src imm16)
  | .sra3 dest src imm16 => .word (pack32 9 dest 10 src imm16)
  | .sll3 dest src imm16 => .word (pack32 9 dest 12 src imm16)
  | .ldi16 dest imm16 => .word (pack32 9 dest 15 0 imm16)
  | .stbDisp src1 src2 disp16 => .word (pack32 10 src1 0 src2 disp16)
  | .sthDisp src1 src2 disp16 => .word (pack32 10 src1 2 src2 disp16)
  | .stDisp src1 src2 disp16 => .word (pack32 10 src1 4 src2 disp16)
  | .bset bitpos src disp16 => .word (pack32 10 (bitposR1 bitpos) 6 src disp16)
  | .bclr bitpos src disp16 => .word (pack32 10 (bitposR1 bitpos) 7 src disp16)
  | .ldbDisp dest src disp16 => .word (pack32 10 dest 8 src disp16)
  | .ldubDisp dest src disp16 => .word (pack32 10 dest 9 src disp16)
  | .ldhDisp dest src disp16 => .word (pack32 10 dest 10 src disp16)
  | .lduhDisp dest src disp16 => .word (pack32 10 dest 11 src disp16)
  | .ldDisp dest src disp16 => .word (pack32 10 dest 12 src disp16)
  | .beq src1 src2 pcdisp16 => .word (pack32 11 src1 0 src2 pcdisp16)
  | .bne src1 src2 pcdisp16 => .word (pack32 11 src1 1 src2 pcdisp16)
  | .beqz src pcdisp16 => .word (pack32 11 0 8 src pcdisp16)
  | .bnez src pcdisp16 => .word (pack32 11 0 9 src pcdisp16)
  | .bltz src pcdisp16 => .word (pack32 11 0 10 src pcdisp16)
  | .bgez src pcdisp16 => .word (pack32 11 0 11 src pcdisp16)
  | .blez src pcdisp16 => .word (pack32 11 0 12 src pcdisp16)
  | .bgtz src pcdisp16 => .word (pack32 11 0 13 src pcdisp16)
  | .mvfcp dest cprSrc cpid inst => .word (packCoproc dest 5 cprSrc cpid inst)
  | .mvtcp src cprDest cpid inst => .word (packCoproc src 6 cprDest cpid inst)
  | .opecp cprDest cprSrc cpid inst => .word (packCoproc cprDest 7 cprSrc cpid inst)
  | .seth dest imm16 => .word (pack32 13 dest 12 0 imm16)
  | .ld24 dest imm24 => .word (pack32Imm24 14 dest imm24)
  | .bcl24 pcdisp24 => .word (pack32Imm24 15 8 pcdisp24)
  | .bncl24 pcdisp24 => .word (pack32Imm24 15 9 pcdisp24)
  | .bc24 pcdisp24 => .word (pack32Imm24 15 12 pcdisp24)
  | .bnc24 pcdisp24 => .word (pack32Imm24 15 13 pcdisp24)
  | .bl24 pcdisp24 => .word (pack32Imm24 15 14 pcdisp24)
  | .bra24 pcdisp24 => .word (pack32Imm24 15 15 pcdisp24)

/-- How many bytes the instruction takes (R60). -/
def Instr.size (i : Instr) : Nat := (encode i).bytes.length

/-- The bytes of an instruction of `nbits` bits `w`, numbered as spec/opcode_table.json numbers them: the first
bit of the instruction is its most significant, and lies at the lowest address (R44). -/
def tableBytes (nbits w : Nat) : List Byte :=
  match nbits with
  | 16 => (Code.half (BitVec.ofNat 16 w)).bytes ++ [0, 0]
  | 32 => (Code.word (BitVec.ofNat 32 w)).bytes
  | _ => []

/-- The instruction the decoder reads from a row's bits. -/
def decodeTableWord (nbits w : Nat) : Option Instr :=
  match decodeBytes (tableBytes nbits w) with
  | .ok (i, _) => some i
  | .error _ => none

end Sys2Proof
end

