-- ==== Sys2Proof/Machine/State.lean ====
section
/-!
DEFINITION. The machine's state as plain data (10_state.md, R10), the reasons a step can stop, and the state
after reset (R33). The fields `stored`, `irq`, `draws` and `issue` are the model's own; each says what for.
-/

namespace Sys2Proof.Machine

/-- Memory: the bytes that are not zero, at strictly rising addresses below 2^32 (`Memory.wf`). A byte
that is not listed reads 0 (DESIGN CHOICE, notes/assumptions/6.md). -/
abbrev Memory := List Host.Cell

/-- The ten defined bits of PSW (R15); the unnamed bits always read 0 and hold no storage (R10, R22). -/
structure Psw where
  /-- Backup SM, b16. -/
  bsm : Bool
  /-- Backup IE, b17. -/
  bie : Bool
  /-- Backup PM, b20. -/
  bpm : Bool
  /-- Backup CE, b21. -/
  bce : Bool
  /-- Backup C, b23. -/
  bc : Bool
  /-- Stack mode, b24: R15 is SPI (false) or SPU (true) (R16). -/
  sm : Bool
  /-- Interrupt enable, b25 (R17). -/
  ie : Bool
  /-- Processor mode, b28: supervisor (false) or user (true) (R18). -/
  pm : Bool
  /-- Coprocessor interrupt enable, b29 (R19). -/
  ce : Bool
  /-- The condition bit C, b31 (R20). -/
  c : Bool
  deriving DecidableEq, Repr

/-- Where a general register is stored: R0 to R14 in cells of their own, R15 in SPI or in SPU (R10, R12). -/
inductive Store where
  | r (n : Fin 15)
  | spi
  | spu
  deriving DecidableEq, Repr

/-- The EITs that go through the entry sequence of R278 (R270); the reset interrupt RI does not (R271). -/
inductive Eit where
  /-- Address exception (R272). -/
  | ae
  /-- Privileged instruction exception (R273). -/
  | pie
  /-- RIE, raised by a reserved encoding (R274). -/
  | rie
  /-- Coprocessor disable exception (R276). -/
  | cde
  /-- Coprocessor interrupt (R276). -/
  | cpi
  /-- An external interrupt with its source number (R277). -/
  | ei (n : BitVec 8)
  /-- TRAP with its trap number (R275). -/
  | trap (n : BitVec 4)
  deriving DecidableEq, Repr

/-- What the environment offers at one boundary between two steps: the parameter IRQ (R277), with the reset
event of R300 beside it. -/
structure IrqOffer where
  /-- A reset (R300). -/
  reset : Bool
  /-- An external interrupt request and its source number. -/
  ei : Option (BitVec 8)
  /-- A coprocessor interrupt request. -/
  cpi : Bool
  deriving DecidableEq, Repr

/-- MODEL'S OWN: how the instruction now executing was issued (R66, R75), and what it told its partner. Between
two steps it is `alone`. -/
inductive Issue where
  /-- On its own: a 32-bit instruction or a sequential 16-bit instruction. -/
  | alone
  /-- As a member of a parallel pair (R75). -/
  | paired
  /-- SC or SNC in a pair has cancelled the other member (R210, R211). -/
  | cancelsPartner
  /-- The member has raised an exception that leaves neither member executed (R281). -/
  | aborted
  deriving DecidableEq, Repr

/-- Everything the spec gives the machine (R10, R35), and the model's own fields. -/
structure State where
  /-- The program counter (R13). -/
  pc : Word
  /-- R0 to R14 (R11). R15 has no cell of its own (R12). -/
  r : Vector Word 15
  /-- SPI, the interrupt stack pointer, CR2 (R25). -/
  spi : Word
  /-- SPU, the user stack pointer, CR3 (R25). -/
  spu : Word
  /-- PSW, CR0 (R15). CBR, CR1, is a view of its C bit (R24). -/
  psw : Psw
  /-- EVB, CR5: bits b1 to b15 (R26). -/
  evb : Word
  /-- EVB_WRITTEN: EVB has been written since reset (R27, R32). -/
  evbWritten : Bool
  /-- BPC, CR6 (R28). -/
  bpc : Word
  /-- The 56 stored bits of ACC0 (R29). -/
  acc0 : BitVec 56
  /-- The 56 stored bits of ACC1 (R29). -/
  acc1 : BitVec 56
  /-- The LOCK bit (R30). -/
  lock : Bool
  /-- Memory (R40). -/
  mem : Memory
  /-- The addresses the CPU has stored to since reset, strictly rising: executing them has no meaning (R54). -/
  stored : List Nat
  /-- The coprocessors, by cpid; `none` is absent (R260, R35). -/
  coproc : Vector (Option Coproc) 16
  /-- MODEL'S OWN: what the environment offers at the coming step boundaries, the next one first (R277). -/
  irq : List IrqOffer
  /-- MODEL'S OWN: how many free values have been drawn (R6, `any32`). -/
  draws : Nat
  /-- MODEL'S OWN: how the instruction now executing was issued. -/
  issue : Issue
  deriving DecidableEq, Repr

/-- The machine never stops with a fault: every exception the spec names is an EIT, which is taken (R278), and
no address is unbacked (R55, D27). -/
inductive Fault where
  deriving DecidableEq, Repr

/-- Why the model gives a step no meaning: the spec's `refuse` (R6). Each is safe: the model stops where the hardware
may go on. -/
inductive Refusal where
  /-- The instruction has no meaning in this model yet. Raised by no arm. Safe. -/
  | notModelled (mnemonic : String)
  /-- MVFC or MVTC of a control register number that names no register (R14). Raised by both. Safe. -/
  | unassignedControlRegister (n : BitVec 4)
  /-- A second MVTC to EVB after reset (R27). Raised by MVTC. Safe. -/
  | evbWrittenTwice
  /-- A 1 for a bit of PSW with no name, or for b16 to b31 of EVB (R22, R26). Raised by MVTC and SETPSW. Safe. -/
  | fixedZeroBit
  /-- A load or store with register update whose data register is its base register (R111). Raised by
  LD, ST, STB and STH with update. Safe. -/
  | updateOfDataRegister
  /-- JL R14 (R206). Raised by JL. Safe. -/
  | jumpLinkThroughLink
  /-- A user-mode access outside user space (R287). Raised by fetches, loads, stores, BSET and BCLR. Safe. -/
  | userAccessOutsideUserSpace
  /-- MVTCP, MVFCP or OPECP of an absent coprocessor (R260). Raised by the three. Safe. -/
  | coprocessorAbsent (cpid : BitVec 4)
  /-- The execution of a halfword that the CPU has stored to (R54). Raised by the fetch. Safe. -/
  | fetchOfStoredCode
  /-- Execution entering the lower half of a word that is no sequential pair (R66). Raised by the fetch. Safe. -/
  | lowerHalfEntry
  /-- A word marked parallel whose categories form no allowed pair (R74). Raised by the issue of a pair. Safe. -/
  | illegalPair
  deriving DecidableEq, Repr

/-- The three outcomes of an instruction or a step of this machine. -/
abbrev Result := Host.Outcome State Fault Refusal

/-- PSW after reset: the live bits 0 (R15); the backup bits, undefined in the manual, 0
(DESIGN CHOICE, notes/assumptions/5.md). -/
def Psw.reset : Psw :=
  { bsm := false, bie := false, bpm := false, bce := false, bc := false
    sm := false, ie := false, pm := false, ce := false, c := false }

/-- The machine right after reset (R33, R301): supervisor mode at address 0, EVB 0 and not yet written. The values the
spec leaves open (R0 to R14, SPI, SPU, BPC, ACC0, ACC1, LOCK, the backup bits) are 0
(DESIGN CHOICE, notes/assumptions/5.md); the environment's default is no coprocessor (R260) and no request (R277). -/
def State.reset : State :=
  { pc := 0
    r := Vector.replicate 15 0
    spi := 0
    spu := 0
    psw := Psw.reset
    evb := 0
    evbWritten := false
    bpc := 0
    acc0 := 0
    acc1 := 0
    lock := false
    mem := []
    stored := []
    coproc := Vector.replicate 16 none
    irq := []
    draws := 0
    issue := .alone }

end Sys2Proof.Machine
end

