-- ==== Sys2Proof/Machine/Flags.lean ====
section
/-!
DEFINITION. PSW as a word (R15) and every computation of the condition bit C, the machine's one flag (R34).
-/

namespace Sys2Proof.Machine

/-! ## PSW as a word (R15) -/

/-- The word with bit `k` (weight 2^k) equal to `b` and every other bit 0. -/
def bitAt (b : Bool) (k : Nat) : Word := if b then BitVec.twoPow 32 k else 0

/-- PSW as MVFC reads it: the unnamed bits are 0 (R15, R22). -/
def Psw.toWord (p : Psw) : Word :=
  bitAt p.bsm 15 ||| bitAt p.bie 14 ||| bitAt p.bpm 11 ||| bitAt p.bce 10 ||| bitAt p.bc 8 |||
    bitAt p.sm 7 ||| bitAt p.ie 6 ||| bitAt p.pm 3 ||| bitAt p.ce 2 ||| bitAt p.c 0

/-- The word has 1s at named bits of PSW only: what MVTC and SETPSW may write (R22, R124, R224). -/
def Psw.supports (v : Word) : Bool := v &&& ~~~0x0000CDCD == 0

/-- All ten defined bits from a word (R23). -/
def Psw.ofWord (v : Word) : Psw :=
  { bsm := v.getLsbD 15, bie := v.getLsbD 14, bpm := v.getLsbD 11, bce := v.getLsbD 10, bc := v.getLsbD 8
    sm := v.getLsbD 7, ie := v.getLsbD 6, pm := v.getLsbD 3, ce := v.getLsbD 2, c := v.getLsbD 0 }

/-- PSW with the bits of `imm8` cleared in b24 to b31, the BPSW field kept (R223). -/
def Psw.clear (p : Psw) (imm8 : BitVec 8) : Psw :=
  Psw.ofWord (p.toWord &&& (~~~(imm8.setWidth 32) ||| 0xFFFFFF00))

/-- PSW with the bits of `imm8` set in b24 to b31 (R224). -/
def Psw.set (p : Psw) (imm8 : BitVec 8) : Psw :=
  Psw.ofWord (p.toWord ||| imm8.setWidth 32)

/-- PSW after an EIT entry: the live bits saved in the backup bits, then IE, PM, CE and C 0 and SM unchanged
(R225, R278). -/
def Psw.enterEit (p : Psw) : Psw :=
  { p with
    bsm := p.sm, bie := p.ie, bpm := p.pm, bce := p.ce, bc := p.c
    ie := false, pm := false, ce := false, c := false }

/-- PSW after RTE: the live bits from the backup bits, which keep their values (R226). -/
def Psw.returnFromEit (p : Psw) : Psw :=
  { p with sm := p.bsm, ie := p.bie, pm := p.bpm, ce := p.bce, c := p.bc }

/-! ## The condition bit (R34) -/

/-- "overflow" of ADDV, ADDV3 and SUBV: the exact result is no signed 32-bit integer (R129 (c)). -/
def signedOverflow (n : Int) : Bool := decide (n < -2147483648 ∨ 2147483647 < n)

/-- "carry_out" of ADDX and "borrow" of SUBX: the exact result is no unsigned 32-bit integer (R129 (c)). -/
def unsignedOverflow (n : Int) : Bool := decide (n < 0 ∨ 4294967295 < n)

/-- C as the carry or borrow into ADDX and SUBX (R142, R146). -/
def carryIn (c : Bool) : Int := if c then 1 else 0

/-- C of CMP and CMPI (R130, R132). -/
def lessSigned (a b : Word) : Bool := decide (a.toInt < b.toInt)

/-- C of CMPU and CMPUI (R133, R134). -/
def lessUnsigned (a b : Word) : Bool := decide (a.toNat < b.toNat)

/-- C of PCMPBZ: any of the four bytes is 0 (R136). -/
def someByteZero (v : Word) : Bool :=
  v.extractLsb' 24 8 == 0 || v.extractLsb' 16 8 == 0 || v.extractLsb' 8 8 == 0 || v.extractLsb' 0 8 == 0

/-- C of BTST: the bit of the low byte that `bitpos` names, 0 the most significant (R222). -/
def testedBit (v : Word) (bitpos : BitVec 3) : Bool := v.getLsbD (7 - bitpos.toNat)

end Sys2Proof.Machine
end

