-- ==== Sys2Proof/Machine/Ops.lean ====
section
/-!
DEFINITION. The named operations over memory, registers, accumulators and control registers; the free values;
taking an EIT and returning from one; the program counter.
-/

namespace Sys2Proof.Machine

/-! ## Memory (R40, R42) -/

/-- What a byte that is not listed reads as (DESIGN CHOICE, notes/assumptions/6.md). -/
def Memory.unlisted : Byte := 0

/-- The byte at address `a`. -/
def Memory.readByte : Memory → Nat → Byte
  | [], _ => Memory.unlisted
  | (k, b) :: m, a => if k = a then b else Memory.readByte m a

/-- Memory with byte `b` at address `a`, in canonical form again. -/
def Memory.writeByte : Memory → Nat → Byte → Memory
  | [], a, b => if b = Memory.unlisted then [] else [(a, b)]
  | (k, x) :: m, a, b =>
    if a < k then
      if b = Memory.unlisted then (k, x) :: m else (a, b) :: (k, x) :: m
    else if a = k then
      if b = Memory.unlisted then m else (a, b) :: m
    else
      (k, x) :: Memory.writeByte m a b

/-- The canonical form from address `lo` on: strictly rising addresses below 2^32, no entry that reads as an
unlisted byte does. -/
def Memory.wfFrom : Nat → Memory → Bool
  | _, [] => true
  | lo, (k, b) :: m =>
    decide (lo ≤ k) && decide (k < 4294967296) && !decide (b = Memory.unlisted) && Memory.wfFrom (k + 1) m

/-- The canonical form of memory. -/
def Memory.wf (m : Memory) : Bool := Memory.wfFrom 0 m

/-- The halfword at address `a`, big-endian (R42). -/
def Memory.readHalf (m : Memory) (a : Word) : Half :=
  m.readByte a.toNat ++ m.readByte (a + 1).toNat

/-- The word at address `a`, big-endian (R42). -/
def Memory.readWord (m : Memory) (a : Word) : Word :=
  m.readByte a.toNat ++ m.readByte (a + 1).toNat ++ m.readByte (a + 2).toNat ++ m.readByte (a + 3).toNat

/-- A strictly rising list of addresses with `a` added. -/
def insertAddr (a : Nat) : List Nat → List Nat
  | [] => [a]
  | k :: l => if a < k then a :: k :: l else if a = k then k :: l else k :: insertAddr a l

/-- The canonical form of a set of addresses from `lo` on: strictly rising, below 2^32. -/
def addrsWfFrom : Nat → List Nat → Bool
  | _, [] => true
  | lo, k :: l => decide (lo ≤ k) && decide (k < 4294967296) && addrsWfFrom (k + 1) l

/-- A byte store of the CPU: memory, and the address recorded as stored to (R42, R54). -/
def State.storeByte (s : State) (a : Word) (b : Byte) : State :=
  { s with mem := s.mem.writeByte a.toNat b, stored := insertAddr a.toNat s.stored }

/-- A halfword store, big-endian (R42). -/
def State.storeHalf (s : State) (a : Word) (v : Half) : State :=
  (s.storeByte a (v.extractLsb' 8 8)).storeByte (a + 1) (v.extractLsb' 0 8)

/-- A word store, big-endian (R42). -/
def State.storeWord (s : State) (a : Word) (v : Word) : State :=
  (((s.storeByte a (v.extractLsb' 24 8)).storeByte (a + 1) (v.extractLsb' 16 8)).storeByte
    (a + 2) (v.extractLsb' 8 8)).storeByte (a + 3) (v.extractLsb' 0 8)

/-! ## General registers (R11, R12) -/

/-- Where the general register `n` is stored: R15 names SPI or SPU by PSW.SM (R12). -/
def State.physReg (s : State) (n : Reg) : Store :=
  if h : n.toNat < 15 then .r ⟨n.toNat, h⟩ else if s.psw.sm then .spu else .spi

/-- The register cell `p`. -/
def State.readStore (s : State) : Store → Word
  | .r n => s.r.get n
  | .spi => s.spi
  | .spu => s.spu

/-- The state with `v` in the register cell `p`. -/
def State.writeStore (s : State) (p : Store) (v : Word) : State :=
  match p with
  | .r n => { s with r := s.r.set n v }
  | .spi => { s with spi := v }
  | .spu => { s with spu := v }

/-- `R[n]` (R6). -/
def State.getReg (s : State) (n : Reg) : Word := s.readStore (s.physReg n)

/-- `R[n] <- v` (R6). -/
def State.setReg (s : State) (n : Reg) (v : Word) : State := s.writeStore (s.physReg n) v

/-- `C <- b` (R6). -/
def State.setC (s : State) (b : Bool) : State := { s with psw := { s.psw with c := b } }

/-! ## Accumulators (R29) -/

/-- The 56 stored bits of an accumulator. -/
def State.accBits (s : State) : Acc → BitVec 56
  | .a0 => s.acc0
  | .a1 => s.acc1

/-- `A[a]`: the 64-bit view, the upper 8 bits copies of stored bit 8 (R29). -/
def State.readAcc (s : State) (a : Acc) : BitVec 64 := (s.accBits a).signExtend 64

/-- `A[a] <- v`: the low 56 bits are stored (R29). -/
def State.writeAcc (s : State) (a : Acc) (v : BitVec 64) : State :=
  match a with
  | .a0 => { s with acc0 := v.setWidth 56 }
  | .a1 => { s with acc1 := v.setWidth 56 }

/-! ## Control registers (R14) -/

/-- EVB as it reads: AT is a copy of MATM.AT, b16 to b31 are 0 (R26). -/
def State.readEvb (s : State) : Word :=
  (if Config.atMode then 0x80000000 else 0) ||| (s.evb &&& 0x7FFF0000)

/-- `CR[n]` as MVFC reads it; `none` where the number names no register (R14, R123). -/
def State.readCR (s : State) (n : BitVec 4) : Option Word :=
  match n.toNat with
  | 0 => some s.psw.toWord
  | 1 => some (bitAt s.psw.c 0)
  | 2 => some s.spi
  | 3 => some s.spu
  | 5 => some s.readEvb
  | 6 => some (s.bpc &&& 0xFFFFFFFE)
  | _ => none

/-! ## Free values (R6: any32, any64, any1) -/

/-- The next free word. -/
def State.freeWord (s : State) : Word := Config.freeWord s.draws

/-- The state after `k` free values have been drawn. -/
def State.drawn (s : State) (k : Nat) : State := { s with draws := s.draws + k }

/-! ## The program counter (R13, R66) -/

/-- The address of the word that holds the instruction: `pc & 0xFFFFFFFC` (R190). -/
def State.wordBase (s : State) : Word := s.pc &&& 0xFFFFFFFC

/-- "Fall-through next" for an instruction of `len` bytes: pc + 2 or pc + 4 on its own, the word after the pair
in a pair (R66, R78). It is also TRAP's NextPC (R225). -/
def State.fallThrough (s : State) (len : Word) : Word :=
  match s.issue with
  | .alone => s.pc + len
  | _ => s.wordBase + 4

/-- The state at address `a`. -/
def State.goto (s : State) (a : Word) : State := { s with pc := a }

/-- The state at the fall-through address (R66). -/
def State.advance (s : State) (len : Word) : State := s.goto (s.fallThrough len)

/-- `R[14] <- base + 4`: the word after the one that holds the call (R190 (d)). -/
def State.link (s : State) : State := s.setReg 14 (s.wordBase + 4)

/-- An instruction of `len` bytes that writes the register `d` and goes on. -/
def State.result (s : State) (d : Reg) (v : Word) (len : Word) : State := (s.setReg d v).advance len

/-- An instruction of `len` bytes that writes C and goes on. -/
def State.resultC (s : State) (c : Bool) (len : Word) : State := (s.setC c).advance len

/-- An instruction of `len` bytes that writes an accumulator and goes on. -/
def State.resultAcc (s : State) (a : Acc) (v : BitVec 64) (len : Word) : State := (s.writeAcc a v).advance len

/-! ## Taking an EIT, and returning from one (R278, R226) -/

/-- A number for each EIT, different for different EITs: the key of its vector entry (R280). -/
def Eit.code : Eit → BitVec 14
  | .ae => 0
  | .pie => 1
  | .rie => 2
  | .cde => 3
  | .cpi => 4
  | .trap n => 16 + n.setWidth 14
  | .ei n => 256 + n.setWidth 14

/-- `EIT_VECTOR(kind, n)`: the upper 16 bits are EVB's, the entry is word aligned, the rest is the platform's
(R280). -/
def State.eitVector (s : State) (k : Eit) : Word :=
  s.readEvb.extractLsb' 16 16 ++ Config.vectorSlot k.code ++ (0 : BitVec 2)

/-- `EITEntry(kind, n, bpc)` (R278): BPC and the backup bits saved, IE, PM, CE and C 0, SM unchanged, the pc at the
vector entry, nothing else changed. -/
def State.eitEntry (s : State) (k : Eit) (bpc : Word) : State :=
  { s with bpc := bpc &&& 0xFFFFFFFE, psw := s.psw.enterEit, pc := s.eitVector k }

/-- In a pair, tell the issue of the pair that neither member is executed (R281). -/
def State.abortPair (s : State) : State :=
  { s with issue := match s.issue with | .paired => .aborted | x => x }

/-- `raise <Exception>`: AE, PIE, RIE or CDE, BPC the pc of the instruction that is not executed (R279). -/
def raise (k : Eit) (s : State) : Result := .next ((s.eitEntry k s.pc).abortPair)

/-- The return of RTE: the live PSW bits from the backup bits, the pc from BPC (R226). -/
def State.returnFromEit (s : State) : State :=
  { s with psw := s.psw.returnFromEit, pc := s.bpc &&& 0xFFFFFFFE }

/-- A privileged instruction: PIE in user mode, its effect in supervisor mode (R273). -/
def privileged (s : State) (effect : Result) : Result :=
  if s.psw.pm then raise .pie s else effect

/-- A reset: the reset state with memory kept (R300, D21), and with it what belongs to the environment. -/
def State.resetEvent (s : State) : State :=
  { State.reset with mem := s.mem, coproc := s.coproc, irq := s.irq, draws := s.draws }

/-! ## Access to memory by an instruction (R48) -/

/-- What the checks of R48 say of an access. -/
inductive Access where
  /-- The access is performed. -/
  | granted
  /-- The address exception (R46). -/
  | misaligned
  /-- The processor mode may not access the address (R287). -/
  | denied
  deriving DecidableEq, Repr

/-- PARAMETER `MEM_PRIV` (R287), its default (D23): supervisor mode accesses everything, user mode only user
space, H'0000 0000 to H'7FFF FFFF. -/
def memAllowed (pm : Bool) (a : Word) : Bool := !pm || decide (a.toNat < 2147483648)

/-- The checks before an access of `n` bytes at `a`: alignment, then the processor mode (R48). -/
def State.access (s : State) (a : Word) (n : Nat) : Access :=
  if a.toNat % n ≠ 0 then .misaligned
  else if memAllowed s.psw.pm a then .granted
  else .denied

/-- An access of `n` bytes at `a`: AE, a refusal, or the effect (R48, R111). -/
def withAccess (a : Word) (n : Nat) (s : State) (effect : Result) : Result :=
  match s.access a n with
  | .granted => effect
  | .misaligned => raise .ae s
  | .denied => .refused .userAccessOutsideUserSpace

/-! ## Coprocessors (R260) -/

/-- The coprocessor that `cpid` selects. -/
def State.coprocAt (s : State) (cpid : BitVec 4) : Option Coproc := s.coproc[cpid.toNat]'(cpid.isLt)

/-- The state with coprocessor `cpid` replaced. -/
def State.setCoproc (s : State) (cpid : BitVec 4) (cp : Coproc) : State :=
  { s with coproc := s.coproc.set cpid.toNat (some cp) cpid.isLt }

/-- A command to coprocessor `cpid`: refused if it is absent, CDE if it answers so, else it carries the command out and
`effect` is what the CPU does with its answer (R260 to R263). -/
def withCoproc (cpid : BitVec 4) (cmd : CoprocCommand) (s : State) (effect : Word → State → State) : Result :=
  match s.coprocAt cpid with
  | none => .refused (.coprocessorAbsent cpid)
  | some cp =>
    if cmd ∈ cp.answersCDE then raise .cde s
    else .next (effect (Config.coprocValue cpid cp cmd) (s.setCoproc cpid (Config.coprocNext cpid cp cmd)))

end Sys2Proof.Machine
end

