-- ==== Sys2Proof/Machine/Operands.lean ====
section
/-!
DEFINITION. The operand forms: immediates (R67), effective addresses (R68, R100), branch targets (R190), and the
halves of a register as DSP operands (R230).
-/

namespace Sys2Proof.Machine

/-! ## Immediates (R67) -/

/-- `sext_32` of an 8-bit immediate (ADDI, LDI). -/
def sext8 (c : BitVec 8) : Word := c.signExtend 32

/-- `sext_32` of a 16-bit immediate or displacement. -/
def sext16 (c : Half) : Word := c.signExtend 32

/-- `zext_32` of a 16-bit immediate (AND3, OR3, XOR3). -/
def zext16 (c : Half) : Word := c.setWidth 32

/-- `zext_32` of the 24-bit immediate of LD24. -/
def zext24 (c : BitVec 24) : Word := c.setWidth 32

/-- SETH: the immediate in the upper halfword, the lower one 0 (R125). -/
def upperImm (c : Half) : Word := c ++ (0 : Half)

/-- A shift count in a register: its low 5 bits (R174). -/
def countOfReg (v : Word) : Nat := (v.extractLsb' 0 5).toNat

/-- A shift count in a 16-bit immediate: its low 5 bits (R175). -/
def countOfImm16 (c : Half) : Nat := (c.extractLsb' 0 5).toNat

/-! ## Effective addresses (R100) -/

/-- `@R`, and `@R+` whose address is the register before the update. -/
def State.eaReg (s : State) (b : Reg) : Word := s.getReg b

/-- `@(disp16,R)`: the displacement is sign-extended (R100). -/
def State.eaDisp (s : State) (b : Reg) (d : Half) : Word := s.getReg b + sext16 d

/-- `@+R`: the register after adding 4. -/
def State.eaPreInc (s : State) (b : Reg) : Word := s.getReg b + 4

/-- `@-R`: the register after subtracting 4. -/
def State.eaPreDec (s : State) (b : Reg) : Word := s.getReg b - 4

/-! ## Branch targets (R190) -/

/-- `base + (sext_32(pcdisp8) << 2)` (R190 (a)). -/
def State.target8 (s : State) (d : BitVec 8) : Word := s.wordBase + (d.signExtend 32 <<< 2)

/-- `base + (sext_32(pcdisp16) << 2)` (R190 (a)). -/
def State.target16 (s : State) (d : Half) : Word := s.wordBase + (d.signExtend 32 <<< 2)

/-- `base + (sext_32(pcdisp24) << 2)` (R190 (a)). -/
def State.target24 (s : State) (d : BitVec 24) : Word := s.wordBase + (d.signExtend 32 <<< 2)

/-- `R[src] & 0xFFFFFFFC` (R190 (b)). -/
def State.targetReg (s : State) (b : Reg) : Word := s.getReg b &&& 0xFFFFFFFC

/-! ## Halves of a register (R230 (c)) -/

/-- `hi(x)`: the upper halfword. -/
def hiHalf (x : Word) : Half := x.extractLsb' 16 16

/-- `lo(x)`: the lower halfword. -/
def loHalf (x : Word) : Half := x.extractLsb' 0 16

/-- The low byte of a register (R108, R160). -/
def loByte (x : Word) : Byte := x.extractLsb' 0 8

end Sys2Proof.Machine
end

