-- ==== Sys2Proof/Machine/Arith.lean ====
section
/-!
DEFINITION. The arithmetic instructions (R137 to R146). None traps on overflow (R129).
-/

namespace Sys2Proof.Machine

/-- ADD (R137). -/
def execAdd (dest src : Reg) (s : State) : Result := .next (s.result dest (s.getReg dest + s.getReg src) 2)

/-- ADD3 (R138). -/
def execAdd3 (dest src : Reg) (imm16 : Half) (s : State) : Result :=
  .next (s.result dest (s.getReg src + sext16 imm16) 4)

/-- ADDI (R139). -/
def execAddi (dest : Reg) (imm8 : BitVec 8) (s : State) : Result :=
  .next (s.result dest (s.getReg dest + sext8 imm8) 2)

/-- ADDV: C is the signed overflow of the exact sum (R140). -/
def execAddv (dest src : Reg) (s : State) : Result :=
  let n := (s.getReg dest).toInt + (s.getReg src).toInt
  .next ((s.setC (signedOverflow n)).result dest (BitVec.ofInt 32 n) 2)

/-- ADDV3 (R141). -/
def execAddv3 (dest src : Reg) (imm16 : Half) (s : State) : Result :=
  let n := (s.getReg src).toInt + (sext16 imm16).toInt
  .next ((s.setC (signedOverflow n)).result dest (BitVec.ofInt 32 n) 4)

/-- ADDX: C enters the exact sum, and its carry out is the new C (R142). -/
def execAddx (dest src : Reg) (s : State) : Result :=
  let n : Int := (s.getReg dest).toNat + (s.getReg src).toNat + carryIn s.psw.c
  .next ((s.setC (unsignedOverflow n)).result dest (BitVec.ofInt 32 n) 2)

/-- NEG (R143). -/
def execNeg (dest src : Reg) (s : State) : Result := .next (s.result dest (0 - s.getReg src) 2)

/-- SUB (R144). -/
def execSub (dest src : Reg) (s : State) : Result := .next (s.result dest (s.getReg dest - s.getReg src) 2)

/-- SUBV: C is the signed overflow of the exact difference (R145). -/
def execSubv (dest src : Reg) (s : State) : Result :=
  let n := (s.getReg dest).toInt - (s.getReg src).toInt
  .next ((s.setC (signedOverflow n)).result dest (BitVec.ofInt 32 n) 2)

/-- SUBX: C leaves the exact difference, and its borrow is the new C (R146). -/
def execSubx (dest src : Reg) (s : State) : Result :=
  let n : Int := (s.getReg dest).toNat - (s.getReg src).toNat - carryIn s.psw.c
  .next ((s.setC (unsignedOverflow n)).result dest (BitVec.ofInt 32 n) 2)

end Sys2Proof.Machine
end

