-- ==== Sys2Proof/Machine/BitEit.lean ====
section
/-!
DEFINITION. The bit operation instructions, TRAP and RTE (R220 to R226).
-/

namespace Sys2Proof.Machine

/-- The byte with the single bit that `bitpos` names: 0 is the most significant (R220). -/
def bitOfByte (bitpos : BitVec 3) : Byte := 1 <<< (7 - bitpos.toNat)

/-- BSET and BCLR: a byte is read at `ea`, changed and stored, always stored (R220, R221). -/
def changeByte (ea : Word) (f : Byte) (s : State) : Result :=
  withAccess ea 1 s (.next ((s.storeByte ea f).advance 4))

/-- BCLR: the named bit of the byte becomes 0 (R220). -/
def execBclr (bitpos : BitVec 3) (src : Reg) (disp16 : Half) (s : State) : Result :=
  let ea := s.eaDisp src disp16
  changeByte ea (s.mem.readByte ea.toNat &&& ~~~(bitOfByte bitpos)) s

/-- BSET: the named bit of the byte becomes 1 (R221). -/
def execBset (bitpos : BitVec 3) (src : Reg) (disp16 : Half) (s : State) : Result :=
  let ea := s.eaDisp src disp16
  changeByte ea (s.mem.readByte ea.toNat ||| bitOfByte bitpos) s

/-- BTST: C is the named bit of the low byte of Rsrc (R222). -/
def execBtst (bitpos : BitVec 3) (src : Reg) (s : State) : Result :=
  .next (s.resultC (testedBit (s.getReg src) bitpos) 2)

/-- CLRPSW: privileged (R223). -/
def execClrpsw (imm8 : BitVec 8) (s : State) : Result :=
  privileged s (.next (({ s with psw := s.psw.clear imm8 } : State).advance 2))

/-- SETPSW: privileged; refused with a 1 at a bit that PSW does not support (R224; decision D5, DESIGN CHOICE,
notes/assumptions/9.md). -/
def execSetpsw (imm8 : BitVec 8) (s : State) : Result :=
  privileged s
    (if Psw.supports (imm8.setWidth 32) then .next (({ s with psw := s.psw.set imm8 } : State).advance 2)
    else .refused .fixedZeroBit)

/-- TRAP: the EIT entry with NextPC in BPC; not privileged (R225). -/
def execTrap (imm4 : BitVec 4) (s : State) : Result := .next (s.eitEntry (.trap imm4) (s.fallThrough 2))

/-- RTE: privileged (R226). -/
def execRte (s : State) : Result := privileged s (.next s.returnFromEit)

end Sys2Proof.Machine
end

