-- ==== Sys2Proof/Machine/Branch.lean ====
section
/-!
DEFINITION. The branch instructions, NOP, SC and SNC (R190 to R213). No delay slots; every target is word aligned
(R190 (c)).
-/

namespace Sys2Proof.Machine

/-- A branch to `target` if `taken`, else the fall-through address (R190 (f)). -/
def branchIf (taken : Bool) (target len : Word) (s : State) : Result :=
  if taken then .next (s.goto target) else .next (s.advance len)

/-- A branch that also writes the link to R14, only when it branches (R190 (d)). -/
def branchLinkIf (taken : Bool) (target len : Word) (s : State) : Result :=
  if taken then .next (s.link.goto target) else .next (s.advance len)

/-- BC pcdisp8: branch if C = 1 (R191). -/
def execBc8 (pcdisp8 : BitVec 8) (s : State) : Result := branchIf s.psw.c (s.target8 pcdisp8) 2 s

/-- BCL pcdisp8: branch and link if C = 1 (R192). -/
def execBcl8 (pcdisp8 : BitVec 8) (s : State) : Result := branchLinkIf s.psw.c (s.target8 pcdisp8) 2 s

/-- BNC pcdisp8: branch if C = 0 (R200). -/
def execBnc8 (pcdisp8 : BitVec 8) (s : State) : Result := branchIf (!s.psw.c) (s.target8 pcdisp8) 2 s

/-- BNCL pcdisp8: branch and link if C = 0 (R201). -/
def execBncl8 (pcdisp8 : BitVec 8) (s : State) : Result := branchLinkIf (!s.psw.c) (s.target8 pcdisp8) 2 s

/-- BL pcdisp8: branch and link (R197). -/
def execBl8 (pcdisp8 : BitVec 8) (s : State) : Result := branchLinkIf true (s.target8 pcdisp8) 2 s

/-- BRA pcdisp8: branch (R204). -/
def execBra8 (pcdisp8 : BitVec 8) (s : State) : Result := branchIf true (s.target8 pcdisp8) 2 s

/-- BC pcdisp24: branch if C = 1 (R191). -/
def execBc24 (pcdisp24 : BitVec 24) (s : State) : Result := branchIf s.psw.c (s.target24 pcdisp24) 4 s

/-- BCL pcdisp24: branch and link if C = 1 (R192). -/
def execBcl24 (pcdisp24 : BitVec 24) (s : State) : Result := branchLinkIf s.psw.c (s.target24 pcdisp24) 4 s

/-- BNC pcdisp24: branch if C = 0 (R200). -/
def execBnc24 (pcdisp24 : BitVec 24) (s : State) : Result := branchIf (!s.psw.c) (s.target24 pcdisp24) 4 s

/-- BNCL pcdisp24: branch and link if C = 0 (R201). -/
def execBncl24 (pcdisp24 : BitVec 24) (s : State) : Result := branchLinkIf (!s.psw.c) (s.target24 pcdisp24) 4 s

/-- BL pcdisp24: branch and link (R197). -/
def execBl24 (pcdisp24 : BitVec 24) (s : State) : Result := branchLinkIf true (s.target24 pcdisp24) 4 s

/-- BRA pcdisp24: branch (R204). -/
def execBra24 (pcdisp24 : BitVec 24) (s : State) : Result := branchIf true (s.target24 pcdisp24) 4 s

/-- JC: jump if C = 1 (R205). -/
def execJc (src : Reg) (s : State) : Result := branchIf s.psw.c (s.targetReg src) 2 s

/-- JNC: jump if C = 0 (R208). -/
def execJnc (src : Reg) (s : State) : Result := branchIf (!s.psw.c) (s.targetReg src) 2 s

/-- JMP: jump (R207). -/
def execJmp (src : Reg) (s : State) : Result := branchIf true (s.targetReg src) 2 s

/-- JL: jump and link; JL R14 is refused (R206). -/
def execJl (src : Reg) (s : State) : Result :=
  if src = 14 then .refused .jumpLinkThroughLink
  else branchLinkIf true (s.targetReg src) 2 s

/-- BEQ: branch if Rsrc1 = Rsrc2 (R193). -/
def execBeq (src1 src2 : Reg) (pcdisp16 : Half) (s : State) : Result :=
  branchIf (s.getReg src1 == s.getReg src2) (s.target16 pcdisp16) 4 s

/-- BNE: branch if Rsrc1 ≠ Rsrc2 (R202). -/
def execBne (src1 src2 : Reg) (pcdisp16 : Half) (s : State) : Result :=
  branchIf (s.getReg src1 != s.getReg src2) (s.target16 pcdisp16) 4 s

/-- BEQZ: branch if Rsrc = 0 (R194). -/
def execBeqz (src : Reg) (pcdisp16 : Half) (s : State) : Result :=
  branchIf (s.getReg src == 0) (s.target16 pcdisp16) 4 s

/-- BNEZ: branch if Rsrc ≠ 0 (R203). -/
def execBnez (src : Reg) (pcdisp16 : Half) (s : State) : Result :=
  branchIf (s.getReg src != 0) (s.target16 pcdisp16) 4 s

/-- BLTZ: branch if Rsrc < 0, signed (R199). -/
def execBltz (src : Reg) (pcdisp16 : Half) (s : State) : Result :=
  branchIf (decide ((s.getReg src).toInt < 0)) (s.target16 pcdisp16) 4 s

/-- BGEZ: branch if Rsrc ≥ 0, signed (R195). -/
def execBgez (src : Reg) (pcdisp16 : Half) (s : State) : Result :=
  branchIf (decide (0 ≤ (s.getReg src).toInt)) (s.target16 pcdisp16) 4 s

/-- BLEZ: branch if Rsrc ≤ 0, signed (R198). -/
def execBlez (src : Reg) (pcdisp16 : Half) (s : State) : Result :=
  branchIf (decide ((s.getReg src).toInt ≤ 0)) (s.target16 pcdisp16) 4 s

/-- BGTZ: branch if Rsrc > 0, signed (R196). -/
def execBgtz (src : Reg) (pcdisp16 : Half) (s : State) : Result :=
  branchIf (decide (0 < (s.getReg src).toInt)) (s.target16 pcdisp16) 4 s

/-- NOP (R209). -/
def execNop (s : State) : Result := .next (s.advance 2)

/-- SC and SNC: in a parallel pair, cancel the other member if `cancel`; on its own, no operation (R210, R211). -/
def skipPartnerIf (cancel : Bool) (s : State) : Result :=
  let t := s.advance 2
  match s.issue with
  | .paired => .next (if cancel then { t with issue := .cancelsPartner } else t)
  | _ => .next t

/-- SC: in a pair, cancel the partner if C = 1 (R210). -/
def execSc (s : State) : Result := skipPartnerIf s.psw.c s

/-- SNC: in a pair, cancel the partner if C = 0 (R211). -/
def execSnc (s : State) : Result := skipPartnerIf (!s.psw.c) s

end Sys2Proof.Machine
end

