-- ==== Sys2Proof/Machine/Compare.lean ====
section
/-!
DEFINITION. The compare instructions (R130 to R136): they write C and nothing else.
-/

namespace Sys2Proof.Machine

/-- CMP: C is 1 if Rsrc1 < Rsrc2 as signed integers, else 0 (R130). -/
def execCmp (src1 src2 : Reg) (s : State) : Result := .next (s.resultC (lessSigned (s.getReg src1) (s.getReg src2)) 2)

/-- CMPEQ (R131). -/
def execCmpeq (src1 src2 : Reg) (s : State) : Result := .next (s.resultC (s.getReg src1 == s.getReg src2) 2)

/-- CMPI: the immediate is sign-extended, the comparison signed (R132). -/
def execCmpi (src : Reg) (imm16 : Half) (s : State) : Result :=
  .next (s.resultC (lessSigned (s.getReg src) (sext16 imm16)) 4)

/-- CMPU: the comparison is unsigned (R133). -/
def execCmpu (src1 src2 : Reg) (s : State) : Result :=
  .next (s.resultC (lessUnsigned (s.getReg src1) (s.getReg src2)) 2)

/-- CMPUI: the immediate is sign-extended, the comparison unsigned (R134). -/
def execCmpui (src : Reg) (imm16 : Half) (s : State) : Result :=
  .next (s.resultC (lessUnsigned (s.getReg src) (sext16 imm16)) 4)

/-- CMPZ (R135). -/
def execCmpz (src : Reg) (s : State) : Result := .next (s.resultC (s.getReg src == 0) 2)

/-- PCMPBZ: C is 1 if any byte of Rsrc is 0 (R136). -/
def execPcmpbz (src : Reg) (s : State) : Result := .next (s.resultC (someByteZero (s.getReg src)) 2)

end Sys2Proof.Machine
end

