-- ==== Sys2Proof/Machine/Coprocessor.lean ====
section
/-!
DEFINITION. The coprocessor support instructions (R260 to R263), over the coprocessors that State holds.
-/

namespace Sys2Proof.Machine

/-- MVTCP: Rsrc goes to the coprocessor; no CPU register is written (R261). -/
def execMvtcp (src : Reg) (cprDest cpid : BitVec 4) (inst : BitVec 8) (s : State) : Result :=
  withCoproc cpid (.write cprDest inst (s.getReg src)) s (fun _ t => t.advance 4)

/-- MVFCP: the coprocessor's answer goes to Rdest (R262). -/
def execMvfcp (dest : Reg) (cprSrc cpid : BitVec 4) (inst : BitVec 8) (s : State) : Result :=
  withCoproc cpid (.read cprSrc inst) s (fun v t => t.result dest v 4)

/-- OPECP: the coprocessor executes `inst`; no CPU register is read or written (R263). -/
def execOpecp (cprDest cprSrc cpid : BitVec 4) (inst : BitVec 8) (s : State) : Result :=
  withCoproc cpid (.operate cprDest cprSrc inst) s (fun _ t => t.advance 4)

end Sys2Proof.Machine
end

