-- ==== Sys2Proof/Machine/Dsp.lean ====
section
/-!
DEFINITION. The DSP function instructions (R230 to R252): exact products, sums modulo 2^56 (R230 (a)), rounding and
saturation.
-/

namespace Sys2Proof.Machine

/-- `signed(x) * signed(y)` of two halfwords (R230 (d)). -/
def productHH (x y : Half) : Int := x.toInt * y.toInt

/-- `signed(x) * signed(y)` of a word and a halfword. -/
def productWH (x : Word) (y : Half) : Int := x.toInt * y.toInt

/-- `signed(x) * unsigned(y)` of a word and a halfword (R236). -/
def productWU (x : Word) (y : Half) : Int := x.toInt * y.toNat

/-- `A[a] <- n mod 2^64` of an exact integer (R238). -/
def setAccTo (a : Acc) (n : Int) (s : State) : Result := .next (s.resultAcc a (BitVec.ofInt 64 n) 2)

/-- `A[a] <- (A[a] + n) mod 2^64` (R231). -/
def addToAcc (a : Acc) (n : Int) (s : State) : Result := setAccTo a ((s.readAcc a).toInt + n) s

/-- MACHI (R231). -/
def execMachi (src1 src2 : Reg) (a : Acc) (s : State) : Result :=
  addToAcc a (productHH (hiHalf (s.getReg src1)) (hiHalf (s.getReg src2)) * 65536) s

/-- MACLH1: low halfword by high halfword, into A1 (R232). -/
def execMaclh1 (src1 src2 : Reg) (s : State) : Result :=
  addToAcc .a1 (productHH (loHalf (s.getReg src1)) (hiHalf (s.getReg src2)) * 65536) s

/-- MACLO (R233). -/
def execMaclo (src1 src2 : Reg) (a : Acc) (s : State) : Result :=
  addToAcc a (productHH (loHalf (s.getReg src1)) (loHalf (s.getReg src2)) * 65536) s

/-- MACWHI: word by high halfword, into A0 (R234). -/
def execMacwhi (src1 src2 : Reg) (s : State) : Result :=
  addToAcc .a0 (productWH (s.getReg src1) (hiHalf (s.getReg src2))) s

/-- MACWLO: word by low halfword, into A0 (R235). -/
def execMacwlo (src1 src2 : Reg) (s : State) : Result :=
  addToAcc .a0 (productWH (s.getReg src1) (loHalf (s.getReg src2))) s

/-- MACWU1: word by unsigned low halfword, into A1 (R236). -/
def execMacwu1 (src1 src2 : Reg) (s : State) : Result :=
  addToAcc .a1 (productWU (s.getReg src1) (loHalf (s.getReg src2))) s

/-- MSBLO: the product of the low halfwords is subtracted from A0 (R237). -/
def execMsblo (src1 src2 : Reg) (s : State) : Result :=
  addToAcc .a0 (-(productHH (loHalf (s.getReg src1)) (loHalf (s.getReg src2)) * 65536)) s

/-- MULHI (R238). -/
def execMulhi (src1 src2 : Reg) (a : Acc) (s : State) : Result :=
  setAccTo a (productHH (hiHalf (s.getReg src1)) (hiHalf (s.getReg src2)) * 65536) s

/-- MULLO (R239). -/
def execMullo (src1 src2 : Reg) (a : Acc) (s : State) : Result :=
  setAccTo a (productHH (loHalf (s.getReg src1)) (loHalf (s.getReg src2)) * 65536) s

/-- MULWHI, into A0 (R240). -/
def execMulwhi (src1 src2 : Reg) (s : State) : Result :=
  setAccTo .a0 (productWH (s.getReg src1) (hiHalf (s.getReg src2))) s

/-- MULWLO, into A0 (R241). -/
def execMulwlo (src1 src2 : Reg) (s : State) : Result :=
  setAccTo .a0 (productWH (s.getReg src1) (loHalf (s.getReg src2))) s

/-- MULWU1, into A1 (R242). -/
def execMulwu1 (src1 src2 : Reg) (s : State) : Result :=
  setAccTo .a1 (productWU (s.getReg src1) (loHalf (s.getReg src2))) s

/-- MVFACHI: `A[s][63:32]` (R243). -/
def execMvfachi (dest : Reg) (ss : Acc) (s : State) : Result :=
  .next (s.result dest ((s.readAcc ss).extractLsb' 32 32) 2)

/-- MVFACLO: `A[s][31:0]` (R244). -/
def execMvfaclo (dest : Reg) (ss : Acc) (s : State) : Result :=
  .next (s.result dest ((s.readAcc ss).extractLsb' 0 32) 2)

/-- MVFACMI: `A[s][47:16]` (R245). -/
def execMvfacmi (dest : Reg) (ss : Acc) (s : State) : Result :=
  .next (s.result dest ((s.readAcc ss).extractLsb' 16 32) 2)

/-- MVTACHI: the upper word of the 64-bit view is written, of which the upper 8 bits are lost (R246). -/
def execMvtachi (src : Reg) (dd : Acc) (s : State) : Result :=
  .next (s.resultAcc dd (s.getReg src ++ (s.readAcc dd).extractLsb' 0 32) 2)

/-- MVTACLO: the lower word is written (R247). -/
def execMvtaclo (src : Reg) (dd : Acc) (s : State) : Result :=
  .next (s.resultAcc dd ((s.readAcc dd).extractLsb' 32 32 ++ s.getReg src) 2)

/-- The rounding of RAC and RACH: saturated at `top` and at -2^47, else with the bits outside `mask` cleared
(R248, R249). -/
def roundedAcc (t top : Int) (mask : BitVec 64) : BitVec 64 :=
  if top < t then BitVec.ofInt 64 top
  else if t < -0x800000000000 then BitVec.ofInt 64 (-0x800000000000)
  else BitVec.ofInt 64 t &&& mask

/-- RAC: shifted left by the written immediate, rounded to word size (R248). -/
def execRac (dd ss : Acc) (imm1 : Nat) (s : State) : Result :=
  .next (s.resultAcc dd
    (roundedAcc ((s.readAcc ss).toInt * 2 ^ imm1 + 0x8000) 0x7FFFFFFF0000 0xFFFFFFFFFFFF0000) 2)

/-- RACH: shifted left by the written immediate, rounded to halfword size (R249). -/
def execRach (dd ss : Acc) (imm1 : Nat) (s : State) : Result :=
  .next (s.resultAcc dd
    (roundedAcc ((s.readAcc ss).toInt * 2 ^ imm1 + 0x80000000) 0x7FFF00000000 0xFFFFFFFF00000000) 2)

/-- SADD: A0 plus A1 shifted right arithmetically by 16, into A0 (R250). -/
def execSadd (s : State) : Result :=
  .next (s.resultAcc .a0 (s.readAcc .a0 + (s.readAcc .a1).sshiftRight 16) 2)

/-- SATB: saturation to a signed byte (R251). -/
def execSatb (dest src : Reg) (s : State) : Result :=
  let n := (s.getReg src).toInt
  .next (s.result dest (if 127 ≤ n then 0x0000007F else if n ≤ -128 then 0xFFFFFF80 else s.getReg src) 4)

/-- SATH: saturation to a signed halfword (R252). -/
def execSath (dest src : Reg) (s : State) : Result :=
  let n := (s.getReg src).toInt
  .next (s.result dest (if 32767 ≤ n then 0x00007FFF else if n ≤ -32768 then 0xFFFF8000 else s.getReg src) 4)

end Sys2Proof.Machine
end

