-- ==== Sys2Proof/Machine/LoadStore.lean ====
section
/-!
DEFINITION. The load and store instructions (R100 to R111). Each access goes through `withAccess`: AE leaves everything
as it was (R111).
-/

namespace Sys2Proof.Machine

/-- A load of `n` bytes at `ea` into `dest` by an instruction of `len` bytes (R101 to R105). -/
def loadInto (dest : Reg) (ea : Word) (n : Nat) (v : Word) (len : Word) (s : State) : Result :=
  withAccess ea n s (.next (s.result dest v len))

/-- A form with register update (R100): `t` is the state with the access done, and the base register is written with it.
The data register being the base register is refused (R111). -/
def withUpdate (data base : Reg) (t : State) : Result :=
  if data = base then .refused .updateOfDataRegister else .next t

/-- LD @Rsrc (R101). -/
def execLd (dest src : Reg) (s : State) : Result :=
  loadInto dest (s.eaReg src) 4 (s.mem.readWord (s.eaReg src)) 2 s

/-- LD @Rsrc+: the base is incremented by 4 after the access (R101). -/
def execLdPost (dest src : Reg) (s : State) : Result :=
  let ea := s.eaReg src
  withAccess ea 4 s
    (withUpdate dest src (((s.setReg dest (s.mem.readWord ea)).setReg src (ea + 4)).advance 2))

/-- LD @(disp16,Rsrc) (R101). -/
def execLdDisp (dest src : Reg) (disp16 : Half) (s : State) : Result :=
  loadInto dest (s.eaDisp src disp16) 4 (s.mem.readWord (s.eaDisp src disp16)) 4 s

/-- LDB @Rsrc: the byte is sign-extended (R102). -/
def execLdb (dest src : Reg) (s : State) : Result :=
  loadInto dest (s.eaReg src) 1 ((s.mem.readByte (s.eaReg src).toNat).signExtend 32) 2 s

/-- LDB @(disp16,Rsrc): the byte is sign-extended (R102). -/
def execLdbDisp (dest src : Reg) (disp16 : Half) (s : State) : Result :=
  loadInto dest (s.eaDisp src disp16) 1 ((s.mem.readByte (s.eaDisp src disp16).toNat).signExtend 32) 4 s

/-- LDUB @Rsrc: the byte is zero-extended (R103). -/
def execLdub (dest src : Reg) (s : State) : Result :=
  loadInto dest (s.eaReg src) 1 ((s.mem.readByte (s.eaReg src).toNat).setWidth 32) 2 s

/-- LDUB @(disp16,Rsrc): the byte is zero-extended (R103). -/
def execLdubDisp (dest src : Reg) (disp16 : Half) (s : State) : Result :=
  loadInto dest (s.eaDisp src disp16) 1 ((s.mem.readByte (s.eaDisp src disp16).toNat).setWidth 32) 4 s

/-- LDH @Rsrc: the halfword is sign-extended (R104). -/
def execLdh (dest src : Reg) (s : State) : Result :=
  loadInto dest (s.eaReg src) 2 ((s.mem.readHalf (s.eaReg src)).signExtend 32) 2 s

/-- LDH @(disp16,Rsrc): the halfword is sign-extended (R104). -/
def execLdhDisp (dest src : Reg) (disp16 : Half) (s : State) : Result :=
  loadInto dest (s.eaDisp src disp16) 2 ((s.mem.readHalf (s.eaDisp src disp16)).signExtend 32) 4 s

/-- LDUH @Rsrc: the halfword is zero-extended (R105). -/
def execLduh (dest src : Reg) (s : State) : Result :=
  loadInto dest (s.eaReg src) 2 ((s.mem.readHalf (s.eaReg src)).setWidth 32) 2 s

/-- LDUH @(disp16,Rsrc): the halfword is zero-extended (R105). -/
def execLduhDisp (dest src : Reg) (disp16 : Half) (s : State) : Result :=
  loadInto dest (s.eaDisp src disp16) 2 ((s.mem.readHalf (s.eaDisp src disp16)).setWidth 32) 4 s

/-- LOCK: a word load that sets the LOCK bit (R106). -/
def execLock (dest src : Reg) (s : State) : Result :=
  let ea := s.eaReg src
  withAccess ea 4 s (.next (({ s with lock := true } : State).result dest (s.mem.readWord ea) 2))

/-- ST @Rsrc2 (R107). -/
def execSt (src1 src2 : Reg) (s : State) : Result :=
  withAccess (s.eaReg src2) 4 s (.next ((s.storeWord (s.eaReg src2) (s.getReg src1)).advance 2))

/-- ST @+Rsrc2: the base is incremented by 4 first (R107). -/
def execStPreInc (src1 src2 : Reg) (s : State) : Result :=
  let ea := s.eaPreInc src2
  withAccess ea 4 s (withUpdate src1 src2 (((s.storeWord ea (s.getReg src1)).setReg src2 ea).advance 2))

/-- ST @-Rsrc2: the base is decremented by 4 first (R107). -/
def execStPreDec (src1 src2 : Reg) (s : State) : Result :=
  let ea := s.eaPreDec src2
  withAccess ea 4 s (withUpdate src1 src2 (((s.storeWord ea (s.getReg src1)).setReg src2 ea).advance 2))

/-- ST @(disp16,Rsrc2) (R107). -/
def execStDisp (src1 src2 : Reg) (disp16 : Half) (s : State) : Result :=
  let ea := s.eaDisp src2 disp16
  withAccess ea 4 s (.next ((s.storeWord ea (s.getReg src1)).advance 4))

/-- STB @Rsrc2: the low byte of Rsrc1 (R108). -/
def execStb (src1 src2 : Reg) (s : State) : Result :=
  withAccess (s.eaReg src2) 1 s (.next ((s.storeByte (s.eaReg src2) (loByte (s.getReg src1))).advance 2))

/-- STB @Rsrc2+: the base is incremented by 1 after the access (R108). -/
def execStbPost (src1 src2 : Reg) (s : State) : Result :=
  let ea := s.eaReg src2
  withAccess ea 1 s
    (withUpdate src1 src2 (((s.storeByte ea (loByte (s.getReg src1))).setReg src2 (ea + 1)).advance 2))

/-- STB @(disp16,Rsrc2) (R108). -/
def execStbDisp (src1 src2 : Reg) (disp16 : Half) (s : State) : Result :=
  let ea := s.eaDisp src2 disp16
  withAccess ea 1 s (.next ((s.storeByte ea (loByte (s.getReg src1))).advance 4))

/-- STH @Rsrc2: the low halfword of Rsrc1 (R109). -/
def execSth (src1 src2 : Reg) (s : State) : Result :=
  withAccess (s.eaReg src2) 2 s (.next ((s.storeHalf (s.eaReg src2) (loHalf (s.getReg src1))).advance 2))

/-- STH @Rsrc2+: the base is incremented by 2 after the access (R109). -/
def execSthPost (src1 src2 : Reg) (s : State) : Result :=
  let ea := s.eaReg src2
  withAccess ea 2 s
    (withUpdate src1 src2 (((s.storeHalf ea (loHalf (s.getReg src1))).setReg src2 (ea + 2)).advance 2))

/-- STH @(disp16,Rsrc2) (R109). -/
def execSthDisp (src1 src2 : Reg) (disp16 : Half) (s : State) : Result :=
  let ea := s.eaDisp src2 disp16
  withAccess ea 2 s (.next ((s.storeHalf ea (loHalf (s.getReg src1))).advance 4))

/-- UNLOCK: the store and its checks only if the LOCK bit is 1; the bit is cleared either way, but for AE (R110). -/
def execUnlock (src1 src2 : Reg) (s : State) : Result :=
  let ea := s.eaReg src2
  if s.lock then
    withAccess ea 4 s (.next (({ s.storeWord ea (s.getReg src1) with lock := false } : State).advance 2))
  else .next (({ s with lock := false } : State).advance 2)

end Sys2Proof.Machine
end

