-- ==== Sys2Proof/Machine/Logic.lean ====
section
/-!
DEFINITION. The logic instructions (R147 to R153).
-/

namespace Sys2Proof.Machine

/-- AND (R147). -/
def execAnd (dest src : Reg) (s : State) : Result := .next (s.result dest (s.getReg dest &&& s.getReg src) 2)

/-- AND3: the immediate is zero-extended (R148). -/
def execAnd3 (dest src : Reg) (imm16 : Half) (s : State) : Result :=
  .next (s.result dest (s.getReg src &&& zext16 imm16) 4)

/-- OR (R150). -/
def execOr (dest src : Reg) (s : State) : Result := .next (s.result dest (s.getReg dest ||| s.getReg src) 2)

/-- OR3: the immediate is zero-extended (R151). -/
def execOr3 (dest src : Reg) (imm16 : Half) (s : State) : Result :=
  .next (s.result dest (s.getReg src ||| zext16 imm16) 4)

/-- XOR (R152). -/
def execXor (dest src : Reg) (s : State) : Result := .next (s.result dest (s.getReg dest ^^^ s.getReg src) 2)

/-- XOR3: the immediate is zero-extended (R153). -/
def execXor3 (dest src : Reg) (imm16 : Half) (s : State) : Result :=
  .next (s.result dest (s.getReg src ^^^ zext16 imm16) 4)

/-- NOT (R149). -/
def execNot (dest src : Reg) (s : State) : Result := .next (s.result dest (~~~(s.getReg src)) 2)

end Sys2Proof.Machine
end

