-- ==== Sys2Proof/Machine/MulDiv.lean ====
section
/-!
DEFINITION. Division, remainder and MUL (R160 to R173). Division by zero is no exception (R160).
-/

namespace Sys2Proof.Machine

/-- A divide or remainder instruction: Rsrc = 0 leaves Rdest as it is (R160 (a)); else the 32-bit result of the
exact operation is written (R160 (b), (c)). -/
def divideBy (dest src : Reg) (exact : Int) (s : State) : Result :=
  if s.getReg src = 0 then .next (s.advance 4)
  else .next (s.result dest (BitVec.ofInt 32 exact) 4)

/-- DIV and REM: as `divideBy`, but for -2^31 by -1, where the result is a free value (R160 (d)). -/
def divideWordBy (dest src : Reg) (exact : Int) (s : State) : Result :=
  if s.getReg dest = 0x80000000 ∧ s.getReg src = 0xFFFFFFFF then
    .next ((s.drawn 1).result dest s.freeWord 4)
  else divideBy dest src exact s

/-- The dividend of DIVB and REMB: the low byte, signed (R160). -/
def signedByte (v : Word) : Int := (loByte v).toInt

/-- The dividend of DIVH and REMH: the low halfword, signed (R160). -/
def signedHalf (v : Word) : Int := (loHalf v).toInt

/-- DIV: signed quotient, rounded toward zero (R160, R161). -/
def execDiv (dest src : Reg) (s : State) : Result :=
  divideWordBy dest src (Int.tdiv (s.getReg dest).toInt (s.getReg src).toInt) s

/-- DIVB: signed quotient, rounded toward zero (R160, R162). -/
def execDivb (dest src : Reg) (s : State) : Result :=
  divideBy dest src (Int.tdiv (signedByte (s.getReg dest)) (s.getReg src).toInt) s

/-- DIVH: signed quotient, rounded toward zero (R160, R163). -/
def execDivh (dest src : Reg) (s : State) : Result :=
  divideBy dest src (Int.tdiv (signedHalf (s.getReg dest)) (s.getReg src).toInt) s

/-- REM: signed remainder, with the sign of the dividend (R160, R168). -/
def execRem (dest src : Reg) (s : State) : Result :=
  divideWordBy dest src (Int.tmod (s.getReg dest).toInt (s.getReg src).toInt) s

/-- REMB: signed remainder, with the sign of the dividend (R160, R169). -/
def execRemb (dest src : Reg) (s : State) : Result :=
  divideBy dest src (Int.tmod (signedByte (s.getReg dest)) (s.getReg src).toInt) s

/-- REMH: signed remainder, with the sign of the dividend (R160, R170). -/
def execRemh (dest src : Reg) (s : State) : Result :=
  divideBy dest src (Int.tmod (signedHalf (s.getReg dest)) (s.getReg src).toInt) s

/-- DIVU: unsigned quotient (R160, R164). -/
def execDivu (dest src : Reg) (s : State) : Result :=
  divideBy dest src (((s.getReg dest).toNat / (s.getReg src).toNat : Nat) : Int) s

/-- DIVUB: unsigned quotient (R160, R165). -/
def execDivub (dest src : Reg) (s : State) : Result :=
  divideBy dest src (((loByte (s.getReg dest)).toNat / (s.getReg src).toNat : Nat) : Int) s

/-- DIVUH: unsigned quotient (R160, R166). -/
def execDivuh (dest src : Reg) (s : State) : Result :=
  divideBy dest src (((loHalf (s.getReg dest)).toNat / (s.getReg src).toNat : Nat) : Int) s

/-- REMU: unsigned remainder (R160, R171). -/
def execRemu (dest src : Reg) (s : State) : Result :=
  divideBy dest src (((s.getReg dest).toNat % (s.getReg src).toNat : Nat) : Int) s

/-- REMUB: unsigned remainder (R160, R172). -/
def execRemub (dest src : Reg) (s : State) : Result :=
  divideBy dest src (((loByte (s.getReg dest)).toNat % (s.getReg src).toNat : Nat) : Int) s

/-- REMUH: unsigned remainder (R160, R173). -/
def execRemuh (dest src : Reg) (s : State) : Result :=
  divideBy dest src (((loHalf (s.getReg dest)).toNat % (s.getReg src).toNat : Nat) : Int) s

/-- MUL: the low 32 bits of the product, and both accumulators become free values (R167). -/
def execMul (dest src : Reg) (s : State) : Result :=
  let n := (s.getReg dest).toInt * (s.getReg src).toInt
  let t := s.result dest (BitVec.ofInt 32 n) 2
  .next (({ t with acc0 := Config.freeAcc s.draws, acc1 := Config.freeAcc (s.draws + 1) } : State).drawn 2)

end Sys2Proof.Machine
end

