-- ==== Sys2Proof/Machine/Shift.lean ====
section
/-!
DEFINITION. The shift instructions (R174 to R182): no flag, no trap, counts of 0 to 31.
-/

namespace Sys2Proof.Machine

/-- SLL: shift left by the low 5 bits of Rsrc (R174). -/
def execSll (dest src : Reg) (s : State) : Result :=
  .next (s.result dest (s.getReg dest <<< countOfReg (s.getReg src)) 2)

/-- SLL3: shift left of Rsrc by the low 5 bits of the immediate (R175). -/
def execSll3 (dest src : Reg) (imm16 : Half) (s : State) : Result :=
  .next (s.result dest (s.getReg src <<< countOfImm16 imm16) 4)

/-- SLLI: shift left by imm5 (R176). -/
def execSlli (dest : Reg) (imm5 : BitVec 5) (s : State) : Result :=
  .next (s.result dest (s.getReg dest <<< imm5.toNat) 2)

/-- SRA: arithmetic shift right by the low 5 bits of Rsrc (R177). -/
def execSra (dest src : Reg) (s : State) : Result :=
  .next (s.result dest ((s.getReg dest).sshiftRight (countOfReg (s.getReg src))) 2)

/-- SRA3: arithmetic shift right of Rsrc by the low 5 bits of the immediate (R178). -/
def execSra3 (dest src : Reg) (imm16 : Half) (s : State) : Result :=
  .next (s.result dest ((s.getReg src).sshiftRight (countOfImm16 imm16)) 4)

/-- SRAI: arithmetic shift right by imm5 (R179). -/
def execSrai (dest : Reg) (imm5 : BitVec 5) (s : State) : Result :=
  .next (s.result dest ((s.getReg dest).sshiftRight imm5.toNat) 2)

/-- SRL: logical shift right by the low 5 bits of Rsrc (R180). -/
def execSrl (dest src : Reg) (s : State) : Result :=
  .next (s.result dest (s.getReg dest >>> countOfReg (s.getReg src)) 2)

/-- SRL3: logical shift right of Rsrc by the low 5 bits of the immediate (R181). -/
def execSrl3 (dest src : Reg) (imm16 : Half) (s : State) : Result :=
  .next (s.result dest (s.getReg src >>> countOfImm16 imm16) 4)

/-- SRLI: logical shift right by imm5 (R182). -/
def execSrli (dest : Reg) (imm5 : BitVec 5) (s : State) : Result :=
  .next (s.result dest (s.getReg dest >>> imm5.toNat) 2)

end Sys2Proof.Machine
end

