-- ==== Sys2Proof/Machine/Transfer.lean ====
section
/-!
DEFINITION. The transfer instructions (R120 to R125).
-/

namespace Sys2Proof.Machine

/-- LD24: the 24-bit immediate is zero-extended (R120). -/
def execLd24 (dest : Reg) (imm24 : BitVec 24) (s : State) : Result := .next (s.result dest (zext24 imm24) 4)

/-- LDI, 8-bit immediate, sign-extended (R121). -/
def execLdi8 (dest : Reg) (imm8 : BitVec 8) (s : State) : Result := .next (s.result dest (sext8 imm8) 2)

/-- LDI, 16-bit immediate, sign-extended (R121). -/
def execLdi16 (dest : Reg) (imm16 : Half) (s : State) : Result := .next (s.result dest (sext16 imm16) 4)

/-- MV (R122). -/
def execMv (dest src : Reg) (s : State) : Result := .next (s.result dest (s.getReg src) 2)

/-- MVFC: not privileged; a number that names no register is refused (R123). -/
def execMvfc (dest : Reg) (cr : BitVec 4) (s : State) : Result :=
  match s.readCR cr with
  | some v => .next (s.result dest v 2)
  | none => .refused (.unassignedControlRegister cr)

/-- `CR[n] <- v` as MVTC writes it in supervisor mode: CBR ignores the write, EVB can be written once, its AT and
the fixed bit of BPC stay as they are (R124). A 1 for an unnamed bit of PSW or for b16 to b31 of EVB is refused (R22, R26;
decision D5, DESIGN CHOICE, notes/assumptions/9.md). -/
def writeCR (n : BitVec 4) (v : Word) (s : State) : Except Refusal State :=
  match n.toNat with
  | 0 => if Psw.supports v then .ok { s with psw := Psw.ofWord v } else .error .fixedZeroBit
  | 1 => .ok s
  | 2 => .ok { s with spi := v }
  | 3 => .ok { s with spu := v }
  | 5 =>
    if s.evbWritten then .error .evbWrittenTwice
    else if v &&& 0x0000FFFF ≠ 0 then .error .fixedZeroBit
    else .ok { s with evb := v &&& 0x7FFF0000, evbWritten := true }
  | 6 => .ok { s with bpc := v &&& 0xFFFFFFFE }
  | _ => .error (.unassignedControlRegister n)

/-- MVTC: privileged (R124). -/
def execMvtc (cr : BitVec 4) (src : Reg) (s : State) : Result :=
  privileged s (match writeCR cr (s.getReg src) s with
    | .ok t => .next (t.advance 2)
    | .error r => .refused r)

/-- SETH: the immediate in the upper halfword, the lower one 0 (R125). -/
def execSeth (dest : Reg) (imm16 : Half) (s : State) : Result := .next (s.result dest (upperImm imm16) 4)

end Sys2Proof.Machine
end

