-- ==== Sys2Proof/Machine/Pair.lean ====
section
/-!
DEFINITION. Parallel pairs (R74 to R79): the categories, what each instruction writes, and the two members executed
together on the state before the pair.
-/

namespace Sys2Proof.Machine

/-! ## Categories (R74, table 2.5.1) -/

/-- The category of an instruction. -/
inductive Category where
  /-- O-: the O pipe only. -/
  | left
  /-- OS: either pipe. -/
  | both
  /-- -S: the S pipe only. -/
  | right
  /-- A 32-bit instruction: never paired. -/
  | wide
  deriving DecidableEq, Repr

/-- The category of each instruction (R74). -/
def category : Instr → Category
  | .subv _ _ => .both
  | .subx _ _ => .both
  | .sub _ _ => .both
  | .neg _ _ => .both
  | .cmp _ _ => .both
  | .cmpu _ _ => .both
  | .cmpeq _ _ => .both
  | .cmpz _ => .both
  | .pcmpbz _ => .both
  | .addv _ _ => .both
  | .addx _ _ => .both
  | .add _ _ => .both
  | .not _ _ => .both
  | .and _ _ => .both
  | .xor _ _ => .both
  | .or _ _ => .both
  | .btst _ _ => .left
  | .srl _ _ => .both
  | .sra _ _ => .both
  | .sll _ _ => .both
  | .mul _ _ => .right
  | .mv _ _ => .both
  | .mvfc _ _ => .left
  | .mvtc _ _ => .left
  | .jc _ => .left
  | .jnc _ => .left
  | .jl _ => .left
  | .jmp _ => .left
  | .rte => .left
  | .trap _ => .left
  | .stb _ _ => .left
  | .stbPost _ _ => .left
  | .sth _ _ => .left
  | .sthPost _ _ => .left
  | .st _ _ => .left
  | .unlock _ _ => .left
  | .stPreInc _ _ => .left
  | .stPreDec _ _ => .left
  | .ldb _ _ => .left
  | .ldub _ _ => .left
  | .ldh _ _ => .left
  | .lduh _ _ => .left
  | .ld _ _ => .left
  | .lock _ _ => .left
  | .ldPost _ _ => .left
  | .mulhi _ _ _ => .right
  | .mullo _ _ _ => .right
  | .mulwhi _ _ => .right
  | .mulwlo _ _ => .right
  | .machi _ _ _ => .right
  | .maclo _ _ _ => .right
  | .macwhi _ _ => .right
  | .macwlo _ _ => .right
  | .addi _ _ => .both
  | .srli _ _ => .both
  | .srai _ _ => .both
  | .slli _ _ => .both
  | .mvtachi _ _ => .right
  | .mvtaclo _ _ => .right
  | .rach _ _ _ => .right
  | .rac _ _ _ => .right
  | .mulwu1 _ _ => .right
  | .macwu1 _ _ => .right
  | .maclh1 _ _ => .right
  | .msblo _ _ => .right
  | .sadd => .right
  | .mvfachi _ _ => .right
  | .mvfaclo _ _ => .right
  | .mvfacmi _ _ => .right
  | .ldi8 _ _ => .both
  | .nop => .both
  | .setpsw _ => .left
  | .clrpsw _ => .left
  | .sc => .left
  | .snc => .left
  | .bcl8 _ => .left
  | .bncl8 _ => .left
  | .bc8 _ => .left
  | .bnc8 _ => .left
  | .bl8 _ => .left
  | .bra8 _ => .left
  | .cmpi _ _ => .wide
  | .cmpui _ _ => .wide
  | .satb _ _ => .wide
  | .sath _ _ => .wide
  | .addv3 _ _ _ => .wide
  | .add3 _ _ _ => .wide
  | .and3 _ _ _ => .wide
  | .xor3 _ _ _ => .wide
  | .or3 _ _ _ => .wide
  | .div _ _ => .wide
  | .divb _ _ => .wide
  | .divh _ _ => .wide
  | .divu _ _ => .wide
  | .divub _ _ => .wide
  | .divuh _ _ => .wide
  | .rem _ _ => .wide
  | .remb _ _ => .wide
  | .remh _ _ => .wide
  | .remu _ _ => .wide
  | .remub _ _ => .wide
  | .remuh _ _ => .wide
  | .srl3 _ _ _ => .wide
  | .sra3 _ _ _ => .wide
  | .sll3 _ _ _ => .wide
  | .ldi16 _ _ => .wide
  | .stbDisp _ _ _ => .wide
  | .sthDisp _ _ _ => .wide
  | .stDisp _ _ _ => .wide
  | .bset _ _ _ => .wide
  | .bclr _ _ _ => .wide
  | .ldbDisp _ _ _ => .wide
  | .ldubDisp _ _ _ => .wide
  | .ldhDisp _ _ _ => .wide
  | .lduhDisp _ _ _ => .wide
  | .ldDisp _ _ _ => .wide
  | .beq _ _ _ => .wide
  | .bne _ _ _ => .wide
  | .beqz _ _ => .wide
  | .bnez _ _ => .wide
  | .bltz _ _ => .wide
  | .bgez _ _ => .wide
  | .blez _ _ => .wide
  | .bgtz _ _ => .wide
  | .mvfcp _ _ _ _ => .wide
  | .mvtcp _ _ _ _ => .wide
  | .opecp _ _ _ _ => .wide
  | .seth _ _ => .wide
  | .ld24 _ _ => .wide
  | .bcl24 _ => .wide
  | .bncl24 _ => .wide
  | .bc24 _ => .wide
  | .bnc24 _ => .wide
  | .bl24 _ => .wide
  | .bra24 _ => .wide

/-- The allowed pairs, upper and lower: O- with -S or OS, OS with -S or OS, and -S with NOP (R74). -/
def pairAllowed (a b : Instr) : Bool :=
  match category a, category b with
  | .left, .both => true
  | .left, .right => true
  | .both, .both => true
  | .both, .right => true
  | .right, .both => decide (b = .nop)
  | _, _ => false

/-! ## What an instruction writes (R75, R76) -/

/-- The register cells that the instruction writes in state `s` when it completes, bases with update and the link
register among them (R76). -/
def writtenRegs (i : Instr) (s : State) : List Store :=
  match i with
  | .subv dest _ => [s.physReg dest]
  | .subx dest _ => [s.physReg dest]
  | .sub dest _ => [s.physReg dest]
  | .neg dest _ => [s.physReg dest]
  | .cmp _ _ => []
  | .cmpu _ _ => []
  | .cmpeq _ _ => []
  | .cmpz _ => []
  | .pcmpbz _ => []
  | .addv dest _ => [s.physReg dest]
  | .addx dest _ => [s.physReg dest]
  | .add dest _ => [s.physReg dest]
  | .not dest _ => [s.physReg dest]
  | .and dest _ => [s.physReg dest]
  | .xor dest _ => [s.physReg dest]
  | .or dest _ => [s.physReg dest]
  | .btst _ _ => []
  | .srl dest _ => [s.physReg dest]
  | .sra dest _ => [s.physReg dest]
  | .sll dest _ => [s.physReg dest]
  | .mul dest _ => [s.physReg dest]
  | .mv dest _ => [s.physReg dest]
  | .mvfc dest _ => [s.physReg dest]
  | .mvtc cr _ => if cr = 2 then [.spi] else if cr = 3 then [.spu] else []
  | .jc _ => []
  | .jnc _ => []
  | .jl _ => [s.physReg 14]
  | .jmp _ => []
  | .rte => []
  | .trap _ => []
  | .stb _ _ => []
  | .stbPost _ src2 => [s.physReg src2]
  | .sth _ _ => []
  | .sthPost _ src2 => [s.physReg src2]
  | .st _ _ => []
  | .unlock _ _ => []
  | .stPreInc _ src2 => [s.physReg src2]
  | .stPreDec _ src2 => [s.physReg src2]
  | .ldb dest _ => [s.physReg dest]
  | .ldub dest _ => [s.physReg dest]
  | .ldh dest _ => [s.physReg dest]
  | .lduh dest _ => [s.physReg dest]
  | .ld dest _ => [s.physReg dest]
  | .lock dest _ => [s.physReg dest]
  | .ldPost dest src => [s.physReg dest, s.physReg src]
  | .mulhi _ _ _ => []
  | .mullo _ _ _ => []
  | .mulwhi _ _ => []
  | .mulwlo _ _ => []
  | .machi _ _ _ => []
  | .maclo _ _ _ => []
  | .macwhi _ _ => []
  | .macwlo _ _ => []
  | .addi dest _ => [s.physReg dest]
  | .srli dest _ => [s.physReg dest]
  | .srai dest _ => [s.physReg dest]
  | .slli dest _ => [s.physReg dest]
  | .mvtachi _ _ => []
  | .mvtaclo _ _ => []
  | .rach _ _ _ => []
  | .rac _ _ _ => []
  | .mulwu1 _ _ => []
  | .macwu1 _ _ => []
  | .maclh1 _ _ => []
  | .msblo _ _ => []
  | .sadd => []
  | .mvfachi dest _ => [s.physReg dest]
  | .mvfaclo dest _ => [s.physReg dest]
  | .mvfacmi dest _ => [s.physReg dest]
  | .ldi8 dest _ => [s.physReg dest]
  | .nop => []
  | .setpsw _ => []
  | .clrpsw _ => []
  | .sc => []
  | .snc => []
  | .bcl8 _ => if s.psw.c then [s.physReg 14] else []
  | .bncl8 _ => if s.psw.c then [] else [s.physReg 14]
  | .bc8 _ => []
  | .bnc8 _ => []
  | .bl8 _ => [s.physReg 14]
  | .bra8 _ => []
  | .cmpi _ _ => []
  | .cmpui _ _ => []
  | .satb dest _ => [s.physReg dest]
  | .sath dest _ => [s.physReg dest]
  | .addv3 dest _ _ => [s.physReg dest]
  | .add3 dest _ _ => [s.physReg dest]
  | .and3 dest _ _ => [s.physReg dest]
  | .xor3 dest _ _ => [s.physReg dest]
  | .or3 dest _ _ => [s.physReg dest]
  | .div dest _ => [s.physReg dest]
  | .divb dest _ => [s.physReg dest]
  | .divh dest _ => [s.physReg dest]
  | .divu dest _ => [s.physReg dest]
  | .divub dest _ => [s.physReg dest]
  | .divuh dest _ => [s.physReg dest]
  | .rem dest _ => [s.physReg dest]
  | .remb dest _ => [s.physReg dest]
  | .remh dest _ => [s.physReg dest]
  | .remu dest _ => [s.physReg dest]
  | .remub dest _ => [s.physReg dest]
  | .remuh dest _ => [s.physReg dest]
  | .srl3 dest _ _ => [s.physReg dest]
  | .sra3 dest _ _ => [s.physReg dest]
  | .sll3 dest _ _ => [s.physReg dest]
  | .ldi16 dest _ => [s.physReg dest]
  | .stbDisp _ _ _ => []
  | .sthDisp _ _ _ => []
  | .stDisp _ _ _ => []
  | .bset _ _ _ => []
  | .bclr _ _ _ => []
  | .ldbDisp dest _ _ => [s.physReg dest]
  | .ldubDisp dest _ _ => [s.physReg dest]
  | .ldhDisp dest _ _ => [s.physReg dest]
  | .lduhDisp dest _ _ => [s.physReg dest]
  | .ldDisp dest _ _ => [s.physReg dest]
  | .beq _ _ _ => []
  | .bne _ _ _ => []
  | .beqz _ _ => []
  | .bnez _ _ => []
  | .bltz _ _ => []
  | .bgez _ _ => []
  | .blez _ _ => []
  | .bgtz _ _ => []
  | .mvfcp dest _ _ _ => [s.physReg dest]
  | .mvtcp _ _ _ _ => []
  | .opecp _ _ _ _ => []
  | .seth dest _ => [s.physReg dest]
  | .ld24 dest _ => [s.physReg dest]
  | .bcl24 _ => if s.psw.c then [s.physReg 14] else []
  | .bncl24 _ => if s.psw.c then [] else [s.physReg 14]
  | .bc24 _ => []
  | .bnc24 _ => []
  | .bl24 _ => [s.physReg 14]
  | .bra24 _ => []

/-- Whether the instruction writes C when it completes: the list of R34, with R77 for SETPSW and CLRPSW. -/
def writesC : Instr → Bool
  | .subv _ _ => true
  | .subx _ _ => true
  | .sub _ _ => false
  | .neg _ _ => false
  | .cmp _ _ => true
  | .cmpu _ _ => true
  | .cmpeq _ _ => true
  | .cmpz _ => true
  | .pcmpbz _ => true
  | .addv _ _ => true
  | .addx _ _ => true
  | .add _ _ => false
  | .not _ _ => false
  | .and _ _ => false
  | .xor _ _ => false
  | .or _ _ => false
  | .btst _ _ => true
  | .srl _ _ => false
  | .sra _ _ => false
  | .sll _ _ => false
  | .mul _ _ => false
  | .mv _ _ => false
  | .mvfc _ _ => false
  | .mvtc cr _ => decide (cr = 0)
  | .jc _ => false
  | .jnc _ => false
  | .jl _ => false
  | .jmp _ => false
  | .rte => true
  | .trap _ => true
  | .stb _ _ => false
  | .stbPost _ _ => false
  | .sth _ _ => false
  | .sthPost _ _ => false
  | .st _ _ => false
  | .unlock _ _ => false
  | .stPreInc _ _ => false
  | .stPreDec _ _ => false
  | .ldb _ _ => false
  | .ldub _ _ => false
  | .ldh _ _ => false
  | .lduh _ _ => false
  | .ld _ _ => false
  | .lock _ _ => false
  | .ldPost _ _ => false
  | .mulhi _ _ _ => false
  | .mullo _ _ _ => false
  | .mulwhi _ _ => false
  | .mulwlo _ _ => false
  | .machi _ _ _ => false
  | .maclo _ _ _ => false
  | .macwhi _ _ => false
  | .macwlo _ _ => false
  | .addi _ _ => false
  | .srli _ _ => false
  | .srai _ _ => false
  | .slli _ _ => false
  | .mvtachi _ _ => false
  | .mvtaclo _ _ => false
  | .rach _ _ _ => false
  | .rac _ _ _ => false
  | .mulwu1 _ _ => false
  | .macwu1 _ _ => false
  | .maclh1 _ _ => false
  | .msblo _ _ => false
  | .sadd => false
  | .mvfachi _ _ => false
  | .mvfaclo _ _ => false
  | .mvfacmi _ _ => false
  | .ldi8 _ _ => false
  | .nop => false
  | .setpsw imm8 => imm8.getLsbD 0
  | .clrpsw imm8 => imm8.getLsbD 0
  | .sc => false
  | .snc => false
  | .bcl8 _ => false
  | .bncl8 _ => false
  | .bc8 _ => false
  | .bnc8 _ => false
  | .bl8 _ => false
  | .bra8 _ => false
  | .cmpi _ _ => true
  | .cmpui _ _ => true
  | .satb _ _ => false
  | .sath _ _ => false
  | .addv3 _ _ _ => true
  | .add3 _ _ _ => false
  | .and3 _ _ _ => false
  | .xor3 _ _ _ => false
  | .or3 _ _ _ => false
  | .div _ _ => false
  | .divb _ _ => false
  | .divh _ _ => false
  | .divu _ _ => false
  | .divub _ _ => false
  | .divuh _ _ => false
  | .rem _ _ => false
  | .remb _ _ => false
  | .remh _ _ => false
  | .remu _ _ => false
  | .remub _ _ => false
  | .remuh _ _ => false
  | .srl3 _ _ _ => false
  | .sra3 _ _ _ => false
  | .sll3 _ _ _ => false
  | .ldi16 _ _ => false
  | .stbDisp _ _ _ => false
  | .sthDisp _ _ _ => false
  | .stDisp _ _ _ => false
  | .bset _ _ _ => false
  | .bclr _ _ _ => false
  | .ldbDisp _ _ _ => false
  | .ldubDisp _ _ _ => false
  | .ldhDisp _ _ _ => false
  | .lduhDisp _ _ _ => false
  | .ldDisp _ _ _ => false
  | .beq _ _ _ => false
  | .bne _ _ _ => false
  | .beqz _ _ => false
  | .bnez _ _ => false
  | .bltz _ _ => false
  | .bgez _ _ => false
  | .blez _ _ => false
  | .bgtz _ _ => false
  | .mvfcp _ _ _ _ => false
  | .mvtcp _ _ _ _ => false
  | .opecp _ _ _ _ => false
  | .seth _ _ => false
  | .ld24 _ _ => false
  | .bcl24 _ => false
  | .bncl24 _ => false
  | .bc24 _ => false
  | .bnc24 _ => false
  | .bl24 _ => false
  | .bra24 _ => false

/-- Whether the instruction writes the accumulator `a` when it completes (R29). -/
def writesAcc (i : Instr) (a : Acc) : Bool :=
  match i with
  | .subv _ _ => false
  | .subx _ _ => false
  | .sub _ _ => false
  | .neg _ _ => false
  | .cmp _ _ => false
  | .cmpu _ _ => false
  | .cmpeq _ _ => false
  | .cmpz _ => false
  | .pcmpbz _ => false
  | .addv _ _ => false
  | .addx _ _ => false
  | .add _ _ => false
  | .not _ _ => false
  | .and _ _ => false
  | .xor _ _ => false
  | .or _ _ => false
  | .btst _ _ => false
  | .srl _ _ => false
  | .sra _ _ => false
  | .sll _ _ => false
  | .mul _ _ => true
  | .mv _ _ => false
  | .mvfc _ _ => false
  | .mvtc _ _ => false
  | .jc _ => false
  | .jnc _ => false
  | .jl _ => false
  | .jmp _ => false
  | .rte => false
  | .trap _ => false
  | .stb _ _ => false
  | .stbPost _ _ => false
  | .sth _ _ => false
  | .sthPost _ _ => false
  | .st _ _ => false
  | .unlock _ _ => false
  | .stPreInc _ _ => false
  | .stPreDec _ _ => false
  | .ldb _ _ => false
  | .ldub _ _ => false
  | .ldh _ _ => false
  | .lduh _ _ => false
  | .ld _ _ => false
  | .lock _ _ => false
  | .ldPost _ _ => false
  | .mulhi _ _ b => decide (b = a)
  | .mullo _ _ b => decide (b = a)
  | .mulwhi _ _ => decide (a = .a0)
  | .mulwlo _ _ => decide (a = .a0)
  | .machi _ _ b => decide (b = a)
  | .maclo _ _ b => decide (b = a)
  | .macwhi _ _ => decide (a = .a0)
  | .macwlo _ _ => decide (a = .a0)
  | .addi _ _ => false
  | .srli _ _ => false
  | .srai _ _ => false
  | .slli _ _ => false
  | .mvtachi _ dd => decide (dd = a)
  | .mvtaclo _ dd => decide (dd = a)
  | .rach dd _ _ => decide (dd = a)
  | .rac dd _ _ => decide (dd = a)
  | .mulwu1 _ _ => decide (a = .a1)
  | .macwu1 _ _ => decide (a = .a1)
  | .maclh1 _ _ => decide (a = .a1)
  | .msblo _ _ => decide (a = .a0)
  | .sadd => decide (a = .a0)
  | .mvfachi _ _ => false
  | .mvfaclo _ _ => false
  | .mvfacmi _ _ => false
  | .ldi8 _ _ => false
  | .nop => false
  | .setpsw _ => false
  | .clrpsw _ => false
  | .sc => false
  | .snc => false
  | .bcl8 _ => false
  | .bncl8 _ => false
  | .bc8 _ => false
  | .bnc8 _ => false
  | .bl8 _ => false
  | .bra8 _ => false
  | .cmpi _ _ => false
  | .cmpui _ _ => false
  | .satb _ _ => false
  | .sath _ _ => false
  | .addv3 _ _ _ => false
  | .add3 _ _ _ => false
  | .and3 _ _ _ => false
  | .xor3 _ _ _ => false
  | .or3 _ _ _ => false
  | .div _ _ => false
  | .divb _ _ => false
  | .divh _ _ => false
  | .divu _ _ => false
  | .divub _ _ => false
  | .divuh _ _ => false
  | .rem _ _ => false
  | .remb _ _ => false
  | .remh _ _ => false
  | .remu _ _ => false
  | .remub _ _ => false
  | .remuh _ _ => false
  | .srl3 _ _ _ => false
  | .sra3 _ _ _ => false
  | .sll3 _ _ _ => false
  | .ldi16 _ _ => false
  | .stbDisp _ _ _ => false
  | .sthDisp _ _ _ => false
  | .stDisp _ _ _ => false
  | .bset _ _ _ => false
  | .bclr _ _ _ => false
  | .ldbDisp _ _ _ => false
  | .ldubDisp _ _ _ => false
  | .ldhDisp _ _ _ => false
  | .lduhDisp _ _ _ => false
  | .ldDisp _ _ _ => false
  | .beq _ _ _ => false
  | .bne _ _ _ => false
  | .beqz _ _ => false
  | .bnez _ _ => false
  | .bltz _ _ => false
  | .bgez _ _ => false
  | .blez _ _ => false
  | .bgtz _ _ => false
  | .mvfcp _ _ _ _ => false
  | .mvtcp _ _ _ _ => false
  | .opecp _ _ _ _ => false
  | .seth _ _ => false
  | .ld24 _ _ => false
  | .bcl24 _ => false
  | .bncl24 _ => false
  | .bc24 _ => false
  | .bnc24 _ => false
  | .bl24 _ => false
  | .bra24 _ => false

/-! ## The pair (R75 to R78) -/

/-- The register cells of `regs` take their values from the state `fromB`, or a free value where the partner, whose
writes are `other`, writes them too (R76). -/
def mergeRegs (other : List Store) (fromB : State) : List Store → State → State
  | [], t => t
  | p :: regs, t =>
    if p ∈ other then mergeRegs other fromB regs ((t.drawn 1).writeStore p t.freeWord)
    else mergeRegs other fromB regs (t.writeStore p (fromB.readStore p))

/-- C after the pair: B's if only B writes it, a free value if both do (R77), else A's. -/
def mergeC (a b : Instr) (fromB t : State) : State :=
  if writesC b then
    if writesC a then (t.drawn 1).setC (Config.freeBit t.draws) else t.setC fromB.psw.c
  else t

/-- The accumulators after the pair: B's if B writes them, else A's (R76: they cannot collide). -/
def mergeAccs (b : Instr) (fromB t : State) : State :=
  { t with
    acc0 := if writesAcc b .a0 then fromB.acc0 else t.acc0
    acc1 := if writesAcc b .a1 then fromB.acc1 else t.acc1 }

/-- The writes of both members applied together (R75): A's state after, with B's writes laid over it. B, being OS or
-S, writes nothing but registers, C and accumulators. -/
def mergePair (a b : Instr) (s fromA fromB : State) : State :=
  let t := { fromA with draws := max fromA.draws fromB.draws }
  mergeAccs b fromB (mergeC a b fromB (mergeRegs (writtenRegs a s) fromB (writtenRegs b s) t))

/-- The end of the pair's step: nothing is left of how it was issued. -/
def settle (s : State) : State := { s with issue := .alone }

/-- The two members of an allowed pair, each executed on the state before the pair (R75). A member that raises an
exception leaves neither executed (R281); SC and SNC can cancel B (R210, R211). -/
def runPair (a b : Instr) (s : State) : Result :=
  let before := { s with issue := .paired }
  match exec a before with
  | .next fromA =>
    match fromA.issue with
    | .aborted => .next (settle fromA)
    | .cancelsPartner => .next (settle fromA)
    | _ =>
      match exec b before with
      | .next fromB => .next (settle (mergePair a b s fromA fromB))
      | .fault f => .fault f
      | .refused r => .refused r
  | .fault f => .fault f
  | .refused r => .refused r

/-- A parallel pair of halfwords: a reserved member raises RIE before anything else (R281), a pair of categories that is
not allowed is refused (R74). -/
def execPair (ha hb : Half) (s : State) : Result :=
  match decode16 ha, decode16 hb with
  | some a, some b => if pairAllowed a b then runPair a b s else .refused .illegalPair
  | _, _ => raise .rie s

end Sys2Proof.Machine
end

