-- ==== Sys2Proof/Machine/Fetch.lean ====
section
/-!
DEFINITION. One step of the CPU (R66, R9): the boundary between two steps, where a reset or an interrupt may be taken
(R277, R300), the fetch with its length decision (R65, R66), and the execution of what was fetched.
-/

namespace Sys2Proof.Machine

/-! ## The fetch (R65, R66) -/

/-- What a step executes. -/
inductive Parcel where
  /-- One 32-bit instruction. -/
  | wide (w : Word)
  /-- One 16-bit instruction, sequentially. -/
  | single (h : Half)
  /-- Two 16-bit instructions in parallel, the MSB of the lower one read as 0. -/
  | pair (ha hb : Half)
  deriving DecidableEq, Repr

/-- The length decision at a word-aligned pc (R65). -/
def parcelAtWord (w : Word) : Parcel :=
  if msb (upperHalf w) then .wide w
  else if msb (lowerHalf w) then .pair (upperHalf w) (lowerHalf w &&& 0x7FFF)
  else .single (upperHalf w)

/-- The lower half of a word: only of a sequential pair (R66). -/
def parcelAtLowerHalf (w : Word) : Except Refusal Parcel :=
  if msb (upperHalf w) || msb (lowerHalf w) then .error .lowerHalfEntry
  else .ok (.single (lowerHalf w))

/-- The CPU has stored to one of the `n` bytes at `a`. -/
def State.storedAny (s : State) (a : Word) : Nat → Bool
  | 0 => false
  | n + 1 => s.storedAny a n || s.stored.contains (a.toNat + n)

/-- How many bytes of the word a parcel at a word-aligned pc executes. -/
def Parcel.size : Parcel → Nat
  | .wide _ => 4
  | .single _ => 2
  | .pair _ _ => 4

/-- The fetch at pc: the mode check (R287), the word that holds the instruction and what it says of length and parallel
execution (R65, R66), and the refusal of a halfword to be executed that the CPU has stored to (R54). -/
def State.fetch (s : State) : Except Refusal Parcel :=
  let w := s.mem.readWord s.wordBase
  if !memAllowed s.psw.pm s.wordBase then .error .userAccessOutsideUserSpace
  else if s.pc.getLsbD 1 then
    if s.storedAny (s.wordBase + 2) 2 then .error .fetchOfStoredCode else parcelAtLowerHalf w
  else if s.storedAny s.wordBase (parcelAtWord w).size then .error .fetchOfStoredCode
  else .ok (parcelAtWord w)

/-! ## The execution of what was fetched -/

/-- A decoded instruction, executed on its own; a reserved encoding raises RIE (R274). -/
def execDecoded (i : Option Instr) (s : State) : Result :=
  match i with
  | some i => exec i s
  | none => raise .rie s

/-- What was fetched, executed (R66). -/
def execParcel (p : Parcel) (s : State) : Result :=
  match p with
  | .wide w => execDecoded (decode32 w) s
  | .single h => execDecoded (decode16 h) s
  | .pair ha hb => execPair ha hb s

/-- Fetch and execute (R66). -/
def execNext (s : State) : Result :=
  match s.fetch with
  | .ok p => execParcel p s
  | .error r => .refused r

/-! ## The boundary between two steps (R277) -/

/-- What the environment offers at the coming boundary; nothing when the list is exhausted, the default of IRQ. -/
def State.offer (s : State) : IrqOffer :=
  match s.irq with
  | [] => { reset := false, ei := none, cpi := false }
  | o :: _ => o

/-- A coprocessor interrupt is requested: by the environment or by a coprocessor that is present (R276). -/
def State.cpiRequested (s : State) : Bool :=
  s.offer.cpi || s.coproc.toArray.toList.any (fun c => match c with | some cp => cp.requestsCPI | none => false)

/-- The interrupt accepted at this boundary: EI if IE = 1, else CPI if CE = 1 (R277). -/
def State.acceptedInterrupt (s : State) : Option Eit :=
  match s.offer.ei, s.psw.ie with
  | some n, true => some (.ei n)
  | _, _ => if s.cpiRequested && s.psw.ce then some .cpi else none

/-- The boundary passed: the offer is used up, and the coming instruction is issued on its own. -/
def State.passBoundary (s : State) : State := { s with irq := s.irq.tail, issue := .alone }

/-- One step of the CPU: a reset, an EIT entry for an accepted interrupt (BPC the pc of the next instruction, R279), or
an instruction or a pair (R9). Reset overrides everything (R281). -/
def stepCpu (s : State) : Result :=
  let t := s.passBoundary
  if s.offer.reset then .next t.resetEvent
  else
    match s.acceptedInterrupt with
    | some k => .next (t.eitEntry k t.pc)
    | none => execNext t

/-! ## Placing an instruction where the next step fetches it -/

/-- Memory with the bytes at consecutive addresses, placed from outside the machine. -/
def Memory.place : Memory → Nat → List Byte → Memory
  | m, _, [] => m
  | m, a, b :: bs => Memory.place (m.writeByte a b) (a + 1) bs

/-- The instruction goes to the lower half of its word: a halfword where the pc points to a lower half. -/
def State.placesInLowerHalf (s : State) (code : List Byte) : Bool :=
  s.pc.getLsbD 1 && !((code.headD 0).getLsbD 7)

/-- The coprocessors with no interrupt requested. -/
def quietCoprocs (v : Vector (Option Coproc) 16) : Vector (Option Coproc) 16 :=
  Vector.mk (Array.mk (v.toArray.toList.map (fun c => c.map (fun cp => { cp with requestsCPI := false }))))
    (by simp)

/-- The state with the instruction in the word that holds pc, loaded from outside: not code that the CPU has stored,
and with no interrupt or reset to take first. A halfword stands in its word with 0s beside it, so that it is executed
sequentially (R65). -/
def State.placeCode (s : State) (code : List Byte) : State :=
  let base := s.wordBase.toNat
  let lower := s.placesInLowerHalf code
  { s with
    pc := if lower then s.pc else s.wordBase
    mem := s.mem.place base (if lower then [0, 0] ++ code.take 2 else code)
    stored := s.stored.filter (fun a => a < base || base + 4 ≤ a)
    irq := []
    coproc := quietCoprocs s.coproc }

end Sys2Proof.Machine
end

