-- ==== Sys2Proof/Machine/Step.lean ====
section
/-!
DEFINITION. One step, and the placing of an instruction where the next step fetches it.
-/

namespace Sys2Proof.Machine

/-- One step of the machine (R9, R66). -/
def step (s : State) : Host.Outcome State Fault Refusal := stepCpu s

/-- The state whose next step fetches and runs the instruction of `nbits` bits `w`. -/
def State.withFetchWord (s : State) (nbits w : Nat) : State := s.placeCode (tableBytes nbits w)

end Sys2Proof.Machine
end

