-- ==== Sys2Proof/Safety.lean ====
section
/-!
DEFINITION. The terms that statements are made in: the invariant of the machine, what a completed instruction leaves
(its effect and its frame at once), encodings, quiet boundaries, and the end of a run.
-/

namespace Sys2Proof.Machine

/-! ## The invariant -/

/-- What holds in every state between two steps: the fixed bits of PC, BPC and EVB are 0 (R13, R28, R26), EVB is 0 until
it is written (R27), memory and the stored addresses are in canonical form, and no pair is half done (R75). -/
structure State.Inv (s : State) : Prop where
  pcEven : s.pc.getLsbD 0 = false
  bpcEven : s.bpc.getLsbD 0 = false
  evbFixed : s.evb &&& 0x8000FFFF = 0
  evbOnce : s.evbWritten = false → s.evb = 0
  memWf : s.mem.wf = true
  storedWf : addrsWfFrom 0 s.stored = true
  alone : s.issue = .alone

/-! ## What an instruction leaves -/

/-- The byte at `a` is one of the `bytes` stored at `ea`. -/
def InBytes (ea : Nat) (bytes : List Byte) (a : Nat) : Prop := ea ≤ a ∧ a < ea + bytes.length

/-- State `t` is state `s` with the pc at `pc`, the listed register cells holding the listed values, the listed bytes
stored at `ea`, and PSW, the accumulators, LOCK, EVB, EVB_WRITTEN, BPC, the coprocessors and the issue mode as given.
What is not given is as it was in `s`: every register cell not listed (SPI and SPU among them), every byte of memory
outside the stored ones, and each of the rest. Only the count of drawn free values is left open. -/
structure Leaves (s t : State) (pc : Word) (regs : List (Store × Word) := []) (psw : Psw := s.psw)
    (acc0 : BitVec 56 := s.acc0) (acc1 : BitVec 56 := s.acc1) (lock : Bool := s.lock)
    (evb : Word := s.evb) (evbWritten : Bool := s.evbWritten) (bpc : Word := s.bpc)
    (coproc : Vector (Option Coproc) 16 := s.coproc) (issue : Issue := s.issue)
    (ea : Nat := 0) (bytes : List Byte := []) : Prop where
  pc : t.pc = pc
  regs : ∀ p, t.readStore p = (regs.lookup p).getD (s.readStore p)
  psw : t.psw = psw
  acc0 : t.acc0 = acc0
  acc1 : t.acc1 = acc1
  lock : t.lock = lock
  evb : t.evb = evb
  evbWritten : t.evbWritten = evbWritten
  bpc : t.bpc = bpc
  coproc : t.coproc = coproc
  issue : t.issue = issue
  irq : t.irq = s.irq
  bytesIn : ∀ a, InBytes ea bytes a → t.mem.readByte a = bytes.getD (a - ea) 0
  bytesOut : ∀ a, ¬ InBytes ea bytes a → t.mem.readByte a = s.mem.readByte a
  stored : ∀ a, a ∈ t.stored ↔ a ∈ s.stored ∨ InBytes ea bytes a

/-- The instruction completes, writes `v` to the register `d` and nothing else, and goes on after `len` bytes. -/
def CompletesReg (i : Instr) (s : State) (d : Reg) (v len : Word) : Prop :=
  ∃ t, exec i s = .next t ∧ Leaves s t (s.fallThrough len) (regs := [(s.physReg d, v)])

/-- As `CompletesReg`, and C is written too. -/
def CompletesRegC (i : Instr) (s : State) (d : Reg) (v : Word) (c : Bool) (len : Word) : Prop :=
  ∃ t, exec i s = .next t ∧
    Leaves s t (s.fallThrough len) (regs := [(s.physReg d, v)]) (psw := { s.psw with c := c })

/-- The instruction completes, writes C and nothing else, and goes on after `len` bytes. -/
def CompletesC (i : Instr) (s : State) (c : Bool) (len : Word) : Prop :=
  ∃ t, exec i s = .next t ∧ Leaves s t (s.fallThrough len) (psw := { s.psw with c := c })

/-- The instruction completes, writes the accumulator `a` with the 64-bit view `v` and nothing else. -/
def CompletesAcc (i : Instr) (s : State) (a : Acc) (v : BitVec 64) : Prop :=
  ∃ t, exec i s = .next t ∧
    Leaves s t (s.fallThrough 2)
      (acc0 := if a = .a0 then v.setWidth 56 else s.acc0) (acc1 := if a = .a1 then v.setWidth 56 else s.acc1)

/-- The instruction completes, stores the bytes at `ea` and nothing else, and goes on after `len` bytes. -/
def CompletesStore (i : Instr) (s : State) (ea : Word) (bytes : List Byte) (len : Word) : Prop :=
  ∃ t, exec i s = .next t ∧ Leaves s t (s.fallThrough len) (ea := ea.toNat) (bytes := bytes)

/-- The instruction completes and nothing changes but the pc, which is `pc`. -/
def CompletesAt (i : Instr) (s : State) (pc : Word) : Prop :=
  ∃ t, exec i s = .next t ∧ Leaves s t pc

/-- The instruction completes, changes PSW to `p` and nothing else, and goes on. -/
def CompletesPsw (i : Instr) (s : State) (p : Psw) (len : Word) : Prop :=
  ∃ t, exec i s = .next t ∧ Leaves s t (s.fallThrough len) (psw := p)

/-- PSW after an EIT entry, bit by bit (R278). -/
def pswAfterEntry (p : Psw) : Psw :=
  { bsm := p.sm, bie := p.ie, bpm := p.pm, bce := p.ce, bc := p.c
    sm := p.sm, ie := false, pm := false, ce := false, c := false }

/-- State `t` is state `s` after the EIT entry of `k` with `bpc` saved, in the issue mode `issue` (R278). -/
def Entered (s t : State) (k : Eit) (bpc : Word) (issue : Issue := s.issue) : Prop :=
  Leaves s t (s.eitVector k) (psw := pswAfterEntry s.psw) (bpc := bpc &&& 0xFFFFFFFE) (issue := issue)

/-- The instruction raises `k` and changes nothing else: the pc of the instruction is saved (R279). -/
def Raises (i : Instr) (s : State) (k : Eit) : Prop :=
  ∃ t, exec i s = .next t ∧
    Entered s t k s.pc (issue := if s.issue = .paired then .aborted else s.issue)

/-- An access of `n` bytes at `ea` that the instruction may make: aligned (R46) and allowed to the mode (R287). -/
def Accessible (s : State) (ea : Word) (n : Nat) : Prop :=
  ea.toNat % n = 0 ∧ (s.psw.pm = true → ea.toNat < 2147483648)

/-- A load of `n` bytes at `ea` (R111): where the access may be made, `v` goes to `d` and nothing else changes; where it
is misaligned, AE. -/
def Loads (i : Instr) (s : State) (d : Reg) (ea : Word) (n : Nat) (v len : Word) : Prop :=
  (Accessible s ea n → CompletesReg i s d v len) ∧ (ea.toNat % n ≠ 0 → Raises i s .ae)

/-- A store of the bytes at `ea` (R111): where the access may be made, they are stored and nothing else changes; where it
is misaligned, AE. -/
def Stores (i : Instr) (s : State) (ea : Word) (bytes : List Byte) (len : Word) : Prop :=
  (Accessible s ea bytes.length → CompletesStore i s ea bytes len) ∧
    (ea.toNat % bytes.length ≠ 0 → Raises i s .ae)

/-- A store that also writes `ub` to the base register `b`; refused where the data register `d` is the base (R111). -/
def StoresWithUpdate (i : Instr) (s : State) (d b : Reg) (ea : Word) (bytes : List Byte) (ub : Word) : Prop :=
  (Accessible s ea bytes.length → d ≠ b →
    ∃ t, exec i s = .next t ∧
      Leaves s t (s.fallThrough 2) (regs := [(s.physReg b, ub)]) (ea := ea.toNat) (bytes := bytes)) ∧
    (Accessible s ea bytes.length → d = b → exec i s = .refused .updateOfDataRegister) ∧
    (ea.toNat % bytes.length ≠ 0 → Raises i s .ae)

/-- Where an instruction stores in state `s`, if it completes: the address as its meaning computes it, and how many
bytes. -/
def storeTarget (i : Instr) (s : State) : Option (Word × Nat) :=
  match i with
  | .subv _ _ => none
  | .subx _ _ => none
  | .sub _ _ => none
  | .neg _ _ => none
  | .cmp _ _ => none
  | .cmpu _ _ => none
  | .cmpeq _ _ => none
  | .cmpz _ => none
  | .pcmpbz _ => none
  | .addv _ _ => none
  | .addx _ _ => none
  | .add _ _ => none
  | .not _ _ => none
  | .and _ _ => none
  | .xor _ _ => none
  | .or _ _ => none
  | .btst _ _ => none
  | .srl _ _ => none
  | .sra _ _ => none
  | .sll _ _ => none
  | .mul _ _ => none
  | .mv _ _ => none
  | .mvfc _ _ => none
  | .mvtc _ _ => none
  | .jc _ => none
  | .jnc _ => none
  | .jl _ => none
  | .jmp _ => none
  | .rte => none
  | .trap _ => none
  | .stb _ src2 => some (s.eaReg src2, 1)
  | .stbPost _ src2 => some (s.eaReg src2, 1)
  | .sth _ src2 => some (s.eaReg src2, 2)
  | .sthPost _ src2 => some (s.eaReg src2, 2)
  | .st _ src2 => some (s.eaReg src2, 4)
  | .unlock _ src2 => if s.lock then some (s.eaReg src2, 4) else none
  | .stPreInc _ src2 => some (s.eaPreInc src2, 4)
  | .stPreDec _ src2 => some (s.eaPreDec src2, 4)
  | .ldb _ _ => none
  | .ldub _ _ => none
  | .ldh _ _ => none
  | .lduh _ _ => none
  | .ld _ _ => none
  | .lock _ _ => none
  | .ldPost _ _ => none
  | .mulhi _ _ _ => none
  | .mullo _ _ _ => none
  | .mulwhi _ _ => none
  | .mulwlo _ _ => none
  | .machi _ _ _ => none
  | .maclo _ _ _ => none
  | .macwhi _ _ => none
  | .macwlo _ _ => none
  | .addi _ _ => none
  | .srli _ _ => none
  | .srai _ _ => none
  | .slli _ _ => none
  | .mvtachi _ _ => none
  | .mvtaclo _ _ => none
  | .rach _ _ _ => none
  | .rac _ _ _ => none
  | .mulwu1 _ _ => none
  | .macwu1 _ _ => none
  | .maclh1 _ _ => none
  | .msblo _ _ => none
  | .sadd => none
  | .mvfachi _ _ => none
  | .mvfaclo _ _ => none
  | .mvfacmi _ _ => none
  | .ldi8 _ _ => none
  | .nop => none
  | .setpsw _ => none
  | .clrpsw _ => none
  | .sc => none
  | .snc => none
  | .bcl8 _ => none
  | .bncl8 _ => none
  | .bc8 _ => none
  | .bnc8 _ => none
  | .bl8 _ => none
  | .bra8 _ => none
  | .cmpi _ _ => none
  | .cmpui _ _ => none
  | .satb _ _ => none
  | .sath _ _ => none
  | .addv3 _ _ _ => none
  | .add3 _ _ _ => none
  | .and3 _ _ _ => none
  | .xor3 _ _ _ => none
  | .or3 _ _ _ => none
  | .div _ _ => none
  | .divb _ _ => none
  | .divh _ _ => none
  | .divu _ _ => none
  | .divub _ _ => none
  | .divuh _ _ => none
  | .rem _ _ => none
  | .remb _ _ => none
  | .remh _ _ => none
  | .remu _ _ => none
  | .remub _ _ => none
  | .remuh _ _ => none
  | .srl3 _ _ _ => none
  | .sra3 _ _ _ => none
  | .sll3 _ _ _ => none
  | .ldi16 _ _ => none
  | .stbDisp _ src2 disp16 => some (s.eaDisp src2 disp16, 1)
  | .sthDisp _ src2 disp16 => some (s.eaDisp src2 disp16, 2)
  | .stDisp _ src2 disp16 => some (s.eaDisp src2 disp16, 4)
  | .bset _ src disp16 => some (s.eaDisp src disp16, 1)
  | .bclr _ src disp16 => some (s.eaDisp src disp16, 1)
  | .ldbDisp _ _ _ => none
  | .ldubDisp _ _ _ => none
  | .ldhDisp _ _ _ => none
  | .lduhDisp _ _ _ => none
  | .ldDisp _ _ _ => none
  | .beq _ _ _ => none
  | .bne _ _ _ => none
  | .beqz _ _ => none
  | .bnez _ _ => none
  | .bltz _ _ => none
  | .bgez _ _ => none
  | .blez _ _ => none
  | .bgtz _ _ => none
  | .mvfcp _ _ _ _ => none
  | .mvtcp _ _ _ _ => none
  | .opecp _ _ _ _ => none
  | .seth _ _ => none
  | .ld24 _ _ => none
  | .bcl24 _ => none
  | .bncl24 _ => none
  | .bc24 _ => none
  | .bnc24 _ => none
  | .bl24 _ => none
  | .bra24 _ => none

/-! ## Exact numbers -/

/-- The bytes of memory at `a` and after, as one number, the first the most significant (R42). -/
def bytesAt (m : Memory) (a : Nat) : Nat → Nat
  | 0 => 0
  | n + 1 => bytesAt m a n * 256 + (m.readByte (a + n)).toNat

/-- The two's-complement reading of an unsigned number of `w` bits. -/
def signedReading (w n : Nat) : Int := if n < 2 ^ (w - 1) then n else n - 2 ^ w

/-- The `n` bytes of a number, the most significant first (R42). -/
def bigEndian (v : Nat) : Nat → List Byte
  | 0 => []
  | n + 1 => BitVec.ofNat 8 (v / 256 ^ n) :: bigEndian v n

/-- The address of the word that holds the instruction at the pc (R190: `base`). -/
def State.wordStart (s : State) : Nat := s.pc.toNat / 4 * 4

/-- The target of a PC-relative branch: `d` words from the word that holds the branch (R190 (a)). -/
def State.relative (s : State) (d : Int) : Word := BitVec.ofInt 32 (s.wordStart + 4 * d)

/-- The target of a register branch (R190 (b)). -/
def aligned (v : Word) : Word := BitVec.ofNat 32 (v.toNat / 4 * 4)

/-- The link value (R190 (d)). -/
def State.linkValue (s : State) : Word := BitVec.ofNat 32 (s.wordStart + 4)

/-- The instruction completes, the pc goes to `target` and nothing else changes but R14, which holds the link value. -/
def CompletesLink (i : Instr) (s : State) (target : Word) : Prop :=
  ∃ t, exec i s = .next t ∧ Leaves s t target (regs := [(s.physReg 14, s.linkValue)])

/-- The upper halfword as a signed integer (R230 (c)). -/
def hiInt (v : Word) : Int := v.toInt / 65536

/-- The lower halfword as an unsigned integer. -/
def loNat (v : Word) : Nat := v.toNat % 65536

/-- The lower halfword as a signed integer (R230 (c)). -/
def loInt (v : Word) : Int := signedReading 16 (loNat v)

/-- An accumulator as a signed integer: its 64-bit view has the same value (R29). -/
def State.accInt (s : State) (a : Acc) : Int := (s.accBits a).toInt

/-- PSW by the manual's bit numbers: 0 where no bit is named (R15). -/
def Psw.bit (p : Psw) (k : Nat) : Bool :=
  match k with
  | 16 => p.bsm
  | 17 => p.bie
  | 20 => p.bpm
  | 21 => p.bce
  | 23 => p.bc
  | 24 => p.sm
  | 25 => p.ie
  | 28 => p.pm
  | 29 => p.ce
  | 31 => p.c
  | _ => false

/-! ## Encodings -/

/-- `c` is the encoding of `i`, and the decoder reads `i` from its bytes. -/
def EncodedAs (i : Instr) (c : Code) : Prop := encode i = c ∧ decodeBytes c.bytes = .ok (i, [])

/-- The 1-bit accumulator selector: 0 is A0, 1 is A1 (R64). -/
def accBit : Acc → BitVec 1
  | .a0 => 0
  | .a1 => 1

/-- The 2-bit accumulator selector: 00 is A0, 01 is A1 (R64). -/
def accField : Acc → BitVec 2
  | .a0 => 0
  | .a1 => 1

/-! ## Steps -/

/-- No reset is offered and no interrupt is accepted at the coming boundary (R277). -/
def State.quiet (s : State) : Prop := s.offer.reset = false ∧ s.acceptedInterrupt = none

/-- The mode may fetch the word at the pc (R287), and the CPU has not stored to the `n` bytes from byte `k` of that word
on (R54). -/
def State.fetchable (s : State) (k n : Nat) : Prop :=
  (s.psw.pm = true → s.wordStart < 2147483648) ∧ ∀ a ∈ s.stored, ¬ (s.wordStart + k ≤ a ∧ a < s.wordStart + k + n)

/-- Byte `k` of the word that holds the instruction at the pc (R66). -/
def State.codeByte (s : State) (k : Nat) : Byte := s.mem.readByte (s.wordStart + k)

/-- A run has ended normally when a step is about to begin at END_PC (R309). -/
def State.ended (endPc : Option Word) (s : State) : Prop := endPc = some s.pc

end Sys2Proof.Machine
end

