-- ==== Sys2Proof/Certificates/Slice0/Obligations.lean ====
section
/-!
DEFINITION. The statements for the provers.
-/

open Sys2Proof Sys2Proof.Machine

/-- R33, R301: the values the spec gives at reset, and only those (the rest is notes/assumptions/5.md). -/
def Obligations.reset_values : Prop :=
  State.reset.pc = 0 ∧ State.reset.psw.sm = false ∧ State.reset.psw.ie = false ∧ State.reset.psw.pm = false ∧
    State.reset.psw.ce = false ∧ State.reset.psw.c = false ∧
    (∀ v, State.reset.readCR 0 = some v → v &&& 0xFFFF32FF#32 = 0) ∧
    State.reset.readCR 1 = some 0 ∧ State.reset.readCR 5 = some 0 ∧
    State.reset.evbWritten = false ∧ State.reset.issue = .alone

/-- The invariant of `State.Inv` holds at reset. -/
def Obligations.reset_inv : Prop :=
  State.reset.Inv

/-- Every step keeps `State.Inv`, from every state that has it, reached or not. -/
def Obligations.step_keeps_inv : Prop :=
  ∀ s t : State, s.Inv → step s = .next t → t.Inv

/-- R80: no bit of an encoding is dropped, for all 135 forms and every operand. -/
def Obligations.decode_encode : Prop :=
  ∀ (i : Instr) (rest : List Byte), i.wellFormed = true →
    decodeBytes ((encode i).bytes ++ rest) = .ok (i, rest)

/-- R80, R71: the decoder matches all constant bits; what is no encoding is rejected. -/
def Obligations.encode_decode : Prop :=
  ∀ (bs rest : List Byte) (i : Instr), decodeBytes bs = .ok (i, rest) →
    i.wellFormed = true ∧ bs = (encode i).bytes ++ rest

/-- R69, R72, R71: a few words of the opcode maps, written out bit by bit. -/
def Obligations.decoding_samples : Prop :=
  decode16 0b0000001110100100#16 = some (.add 3 4) ∧
    decode16 0b0010010111100110#16 = some (.ldPost 5 6) ∧
    decode16 0b0001000110100010#16 = some (.mvtc 1 2) ∧
    decode16 0b0011000111010010#16 = some (.maclo 1 2 .a1) ∧
    decode16 0b0101010010010001#16 = some (.rac .a1 .a0 2) ∧
    decode16 0b0000010111110011#16 = some (.btst 5 3) ∧
    decode16 0b0001000011110111#16 = some (.trap 7) ∧
    decode16 0b0111110011111110#16 = some (.bc8 0xFE) ∧
    decode32 0b10010001000000100000000000011000#32 = some (.divb 1 2) ∧
    decode32 0b10100010011100110000000000000100#32 = some (.bclr 2 3 4) ∧
    decode32 0b10110001000000100000000000000011#32 = some (.beq 1 2 3) ∧
    decode32 0b11010001011000100011000000000100#32 = some (.mvtcp 1 2 3 4) ∧
    decode32 0b11100001000000000000000000000010#32 = some (.ld24 1 2) ∧
    decode16 0b0000000101110001#16 = none ∧ decode16 0b0000100011110001#16 = none ∧
    decode16 0b0101000111110011#16 = none ∧ decode16 0b0111000000000001#16 = none ∧
    decode32 0b11000000000000000000000000000000#32 = none ∧
    decode32 0b10010001000000100000000000001000#32 = none

/-- R66: the three ways in which one instruction is run by a step. `passBoundary` is what the step adds: the offer is
used up, and the instruction is issued on its own. -/
def Obligations.step_runs_decoded : Prop :=
  ∀ (s : State) (i : Instr), s.quiet →
    (s.fetchable 0 4 → s.pc.toNat % 4 = 0 →
      decodeBytes [s.codeByte 0, s.codeByte 1, s.codeByte 2, s.codeByte 3] = .ok (i, []) →
      step s = exec i s.passBoundary) ∧
    (s.fetchable 0 2 → s.pc.toNat % 4 = 0 → (s.codeByte 2).msb = false →
      decodeBytes [s.codeByte 0, s.codeByte 1, s.codeByte 2, s.codeByte 3] = .ok (i, [s.codeByte 2, s.codeByte 3]) →
      step s = exec i s.passBoundary) ∧
    (s.fetchable 2 2 → s.pc.toNat % 4 = 2 → (s.codeByte 0).msb = false → (s.codeByte 2).msb = false →
      decodeBytes [s.codeByte 2, s.codeByte 3] = .ok (i, []) → step s = exec i s.passBoundary)

/-- R65, R66, R74: a word with MSBs 0 and 1 is a parallel pair. That one that is not allowed is refused is a choice:
decision D11, notes/assumptions/11.md. -/
def Obligations.step_runs_pair : Prop :=
  ∀ (s : State) (a b : Instr), s.quiet → s.fetchable 0 4 → s.pc.toNat % 4 = 0 →
    (s.codeByte 2).msb = true →
    decodeBytes [s.codeByte 0, s.codeByte 1] = .ok (a, []) →
    decodeBytes [s.codeByte 2 &&& 0x7F, s.codeByte 3] = .ok (b, []) →
    (pairAllowed a b = true → step s = runPair a b s.passBoundary) ∧
    (pairAllowed a b = false → step s = .refused .illegalPair)

/-- R71, R274 (decision D3), R281's rows with RIE. -/
def Obligations.reserved_encoding_raises_rie : Prop :=
  ∀ s : State, s.quiet →
    (s.fetchable 0 4 → s.pc.toNat % 4 = 0 → (s.codeByte 0).msb = true →
      (∃ e, decodeBytes [s.codeByte 0, s.codeByte 1, s.codeByte 2, s.codeByte 3] = .error e) →
      ∃ t, step s = .next t ∧ Entered s.passBoundary t .rie s.pc) ∧
    (s.fetchable 0 2 → s.pc.toNat % 4 = 0 → (s.codeByte 0).msb = false → (s.codeByte 2).msb = false →
      (∃ e, decodeBytes [s.codeByte 0, s.codeByte 1] = .error e) →
      ∃ t, step s = .next t ∧ Entered s.passBoundary t .rie s.pc) ∧
    (s.fetchable 2 2 → s.pc.toNat % 4 = 2 → (s.codeByte 0).msb = false → (s.codeByte 2).msb = false →
      (∃ e, decodeBytes [s.codeByte 2, s.codeByte 3] = .error e) →
      ∃ t, step s = .next t ∧ Entered s.passBoundary t .rie s.pc) ∧
    (s.fetchable 0 4 → s.pc.toNat % 4 = 0 → (s.codeByte 0).msb = false → (s.codeByte 2).msb = true →
      ((∃ e, decodeBytes [s.codeByte 0, s.codeByte 1] = .error e) ∨
        ∃ e, decodeBytes [s.codeByte 2 &&& 0x7F, s.codeByte 3] = .error e) →
      ∃ t, step s = .next t ∧ Entered s.passBoundary t .rie s.pc)

/-- R287, R54 (D10), R66 (D13): the steps that the spec gives no meaning. -/
def Obligations.refused_fetches : Prop :=
  ∀ s : State, s.quiet →
    (s.psw.pm = true → 2147483648 ≤ s.wordStart → step s = .refused .userAccessOutsideUserSpace) ∧
    ((s.psw.pm = true → s.wordStart < 2147483648) →
      (s.pc.getLsbD 1 = false → (∃ a ∈ s.stored, s.wordStart ≤ a ∧ a < s.wordStart + 2) →
        step s = .refused .fetchOfStoredCode) ∧
      (s.pc.getLsbD 1 = false → ((s.codeByte 0).msb = true ∨ (s.codeByte 2).msb = true) →
        (∃ a ∈ s.stored, s.wordStart + 2 ≤ a ∧ a < s.wordStart + 4) → step s = .refused .fetchOfStoredCode) ∧
      (s.pc.getLsbD 1 = true → (∃ a ∈ s.stored, s.wordStart + 2 ≤ a ∧ a < s.wordStart + 4) →
        step s = .refused .fetchOfStoredCode)) ∧
    (s.fetchable 2 2 → s.pc.getLsbD 1 = true → ((s.codeByte 0).msb = true ∨ (s.codeByte 2).msb = true) →
      step s = .refused .lowerHalfEntry)

/-- R277: the acceptance rule, with the entry of R278. -/
def Obligations.interrupts_at_boundaries : Prop :=
  ∀ s : State, s.offer.reset = false →
    (∀ n, s.offer.ei = some n → s.psw.ie = true →
      ∃ t, step s = .next t ∧ Entered s.passBoundary t (.ei n) s.pc) ∧
    ((s.offer.ei = none ∨ s.psw.ie = false) → s.psw.ce = true →
      (s.offer.cpi = true ∨ ∃ k cp, s.coprocAt k = some cp ∧ cp.requestsCPI = true) →
      ∃ t, step s = .next t ∧ Entered s.passBoundary t .cpi s.pc) ∧
    ((s.offer.ei = none ∨ s.psw.ie = false) →
      (s.psw.ce = false ∨ (s.offer.cpi = false ∧ ∀ k cp, s.coprocAt k = some cp → cp.requestsCPI = false)) →
      step s = execNext s.passBoundary)

/-- R300 (decision D21), R281: reset overrides everything. -/
def Obligations.reset_event : Prop :=
  ∀ s : State, s.offer.reset = true →
    ∃ t, step s = .next t ∧ t.pc = 0 ∧ t.psw.sm = false ∧ t.psw.ie = false ∧ t.psw.pm = false ∧ t.psw.ce = false ∧
      t.psw.c = false ∧ t.evb = 0 ∧ t.evbWritten = false ∧ t.mem = s.mem ∧ t.coproc = s.coproc

/-- R280: the constraints on the parameter EIT_VECTOR. Word alignment is derived there; that the entries differ is
this spec's requirement (notes/assumptions/14.md), and that EVB's bit 0 reads 0 is AT_MODE = 0 (decision D24,
notes/assumptions/20.md). -/
def Obligations.vector_entries : Prop :=
  ∀ s : State, s.resetEvent.pc = 0 ∧ s.readEvb.getMsbD 0 = false ∧
    (∀ (k : Eit) (j : Nat), j < 16 → (s.eitVector k).getMsbD j = s.readEvb.getMsbD j) ∧
    (∀ k : Eit, (s.eitVector k).toNat % 4 = 0) ∧
    (∀ k k' : Eit, s.eitVector k = s.eitVector k' → k = k')

/-- R278 (decision D4): the entry sequence with its frame. -/
def Obligations.eit_entry : Prop :=
  ∀ (s : State) (k : Eit) (bpc : Word), Entered s (s.eitEntry k bpc) k bpc

/-- R225, R275: TRAP, in both modes; `t.issue` is as before, so that a partner is executed too. -/
def Obligations.trap_enters_its_handler : Prop :=
  ∀ (s : State) (n : BitVec 4),
    (∃ t, exec (.trap n) s = .next t ∧
      Entered s t (.trap n) (if s.issue = .alone then s.pc + 2 else BitVec.ofNat 32 (s.wordStart + 4))) ∧
    EncodedAs (.trap n) (.half (0b0001#4 ++ 0b0000#4 ++ 0b1111#4 ++ n)) ∧ category (.trap n) = .left

/-- R226: the return, and PIE in user mode. -/
def Obligations.rte_returns_from_eit : Prop :=
  ∀ s : State,
    (s.psw.pm = false →
      ∃ t, exec .rte s = .next t ∧
        Leaves s t (BitVec.ofNat 32 (s.bpc.toNat / 2 * 2))
          (psw := { s.psw with sm := s.psw.bsm, ie := s.psw.bie, pm := s.psw.bpm, ce := s.psw.bce, c := s.psw.bc })) ∧
    (s.psw.pm = true → Raises .rte s .pie) ∧
    EncodedAs .rte (.half (0b0001#4 ++ 0b0000#4 ++ 0b1101#4 ++ 0b0110#4)) ∧ category .rte = .left

/-- R273: the four privileged instructions in user mode. In supervisor mode their own statements say what they do. -/
def Obligations.privileged_instructions : Prop :=
  ∀ (s : State) (cr : BitVec 4) (r : Reg) (m : BitVec 8), s.psw.pm = true →
    Raises .rte s .pie ∧ Raises (.mvtc cr r) s .pie ∧ Raises (.setpsw m) s .pie ∧ Raises (.clrpsw m) s .pie

/-- R46, R272, R111: the address exception for every form that can raise it. That UNLOCK with LOCK = 0 makes no check
is a choice: decision D33, notes/assumptions/21.md. -/
def Obligations.address_exception : Prop :=
  ∀ (s : State) (d b : Reg) (q : Half),
    ((s.eaReg b).toNat % 4 ≠ 0 →
      Raises (.ld d b) s .ae ∧ Raises (.ldPost d b) s .ae ∧ Raises (.lock d b) s .ae ∧ Raises (.st d b) s .ae ∧
        (s.lock = true → Raises (.unlock d b) s .ae)) ∧
    (s.lock = false → ∃ t, exec (.unlock d b) s = .next t ∧ Leaves s t (s.fallThrough 2) (lock := false)) ∧
    ((s.eaPreInc b).toNat % 4 ≠ 0 → Raises (.stPreInc d b) s .ae) ∧
    ((s.eaPreDec b).toNat % 4 ≠ 0 → Raises (.stPreDec d b) s .ae) ∧
    ((s.eaDisp b q).toNat % 4 ≠ 0 → Raises (.ldDisp d b q) s .ae ∧ Raises (.stDisp d b q) s .ae) ∧
    ((s.eaReg b).toNat % 2 ≠ 0 →
      Raises (.ldh d b) s .ae ∧ Raises (.lduh d b) s .ae ∧ Raises (.sth d b) s .ae ∧ Raises (.sthPost d b) s .ae) ∧
    ((s.eaDisp b q).toNat % 2 ≠ 0 →
      Raises (.ldhDisp d b q) s .ae ∧ Raises (.lduhDisp d b q) s .ae ∧ Raises (.sthDisp d b q) s .ae)

/-- R287 (decision D23), R48: the access that the processor mode may not make. -/
def Obligations.user_access_refused : Prop :=
  ∀ (s : State) (d b : Reg) (q : Half) (k : BitVec 3), s.psw.pm = true →
    let no : Host.Outcome State Fault Refusal := .refused .userAccessOutsideUserSpace
    (2147483648 ≤ (s.eaReg b).toNat →
      exec (.ldb d b) s = no ∧ exec (.ldub d b) s = no ∧ exec (.stb d b) s = no ∧ exec (.stbPost d b) s = no) ∧
    (2147483648 ≤ (s.eaReg b).toNat → (s.eaReg b).toNat % 2 = 0 →
      exec (.ldh d b) s = no ∧ exec (.lduh d b) s = no ∧ exec (.sth d b) s = no ∧ exec (.sthPost d b) s = no) ∧
    (2147483648 ≤ (s.eaReg b).toNat → (s.eaReg b).toNat % 4 = 0 →
      exec (.ld d b) s = no ∧ exec (.ldPost d b) s = no ∧ exec (.lock d b) s = no ∧ exec (.st d b) s = no ∧
        (s.lock = true → exec (.unlock d b) s = no)) ∧
    (2147483648 ≤ (s.eaPreInc b).toNat → (s.eaPreInc b).toNat % 4 = 0 → exec (.stPreInc d b) s = no) ∧
    (2147483648 ≤ (s.eaPreDec b).toNat → (s.eaPreDec b).toNat % 4 = 0 → exec (.stPreDec d b) s = no) ∧
    (2147483648 ≤ (s.eaDisp b q).toNat →
      exec (.ldbDisp d b q) s = no ∧ exec (.ldubDisp d b q) s = no ∧ exec (.stbDisp d b q) s = no ∧
        exec (.bset k b q) s = no ∧ exec (.bclr k b q) s = no ∧
      ((s.eaDisp b q).toNat % 2 = 0 →
        exec (.ldhDisp d b q) s = no ∧ exec (.lduhDisp d b q) s = no ∧ exec (.sthDisp d b q) s = no) ∧
      ((s.eaDisp b q).toNat % 4 = 0 → exec (.ldDisp d b q) s = no ∧ exec (.stDisp d b q) s = no))

/-- R120, R121, R122, R125, with the encodings and categories the rules print. -/
def Obligations.transfer_results : Prop :=
  ∀ (s : State) (d r : Reg) (c : BitVec 8) (h : Half) (w : BitVec 24),
    CompletesReg (.ld24 d w) s d (BitVec.ofNat 32 w.toNat) 4 ∧
    EncodedAs (.ld24 d w) (.word (0b1110#4 ++ d ++ w)) ∧
    CompletesReg (.ldi8 d c) s d (BitVec.ofInt 32 c.toInt) 2 ∧
    EncodedAs (.ldi8 d c) (.half (0b0110#4 ++ d ++ c)) ∧
    category (.ldi8 d c) = .both ∧
    CompletesReg (.ldi16 d h) s d (BitVec.ofInt 32 h.toInt) 4 ∧
    EncodedAs (.ldi16 d h) (.word (0b1001#4 ++ d ++ 0b1111#4 ++ 0b0000#4 ++ h)) ∧
    CompletesReg (.mv d r) s d (s.getReg r) 2 ∧
    EncodedAs (.mv d r) (.half (0b0001#4 ++ d ++ 0b1000#4 ++ r)) ∧
    category (.mv d r) = .both ∧
    CompletesReg (.seth d h) s d (BitVec.ofNat 32 (h.toNat * 65536)) 4 ∧
    EncodedAs (.seth d h) (.word (0b1101#4 ++ d ++ 0b1100#4 ++ 0b0000#4 ++ h))

/-- R123, with R22, R24, R25, R26 and R28 as it cites them. Two clauses are choices: AT reads 0 (decision D24,
notes/assumptions/20.md), and a number that names no register is refused (decision D7, notes/assumptions/7.md). -/
def Obligations.mvfc_reads_control_registers : Prop :=
  ∀ (s : State) (d : Reg),
    (∃ v : Word, CompletesReg (.mvfc d 0) s d v 2 ∧ ∀ k, k < 32 → v.getMsbD k = s.psw.bit k) ∧
    CompletesReg (.mvfc d 1) s d (if s.psw.c then 1 else 0) 2 ∧
    CompletesReg (.mvfc d 2) s d s.spi 2 ∧
    CompletesReg (.mvfc d 3) s d s.spu 2 ∧
    (∃ v : Word, CompletesReg (.mvfc d 5) s d v 2 ∧
      ∀ k, k < 32 → v.getMsbD k = (decide (1 ≤ k ∧ k ≤ 15) && s.evb.getMsbD k)) ∧
    (∃ v : Word, CompletesReg (.mvfc d 6) s d v 2 ∧
      ∀ k, k < 32 → v.getMsbD k = (decide (k ≠ 31) && s.bpc.getMsbD k)) ∧
    (∀ n : BitVec 4, n ∉ [0, 1, 2, 3, 5, 6] → exec (.mvfc d n) s = .refused (.unassignedControlRegister n)) ∧
    (∀ n : BitVec 4, EncodedAs (.mvfc d n) (.half (0b0001#4 ++ d ++ 0b1001#4 ++ n)) ∧ category (.mvfc d n) = .left)

/-- R124. The refusals are decisions of the spec where the sources say nothing, and the model's choices with it: D5
(1s in unnamed bits, notes/assumptions/9.md), D6 and D7 (a second write of EVB, unassigned numbers,
notes/assumptions/7.md). -/
def Obligations.mvtc_writes_control_registers : Prop :=
  ∀ (s : State) (r : Reg), s.psw.pm = false →
    let v := s.getReg r
    (v &&& ~~~0x0000CDCD#32 = 0 → CompletesPsw (.mvtc 0 r) s
      { bsm := v.getMsbD 16, bie := v.getMsbD 17, bpm := v.getMsbD 20, bce := v.getMsbD 21, bc := v.getMsbD 23
        sm := v.getMsbD 24, ie := v.getMsbD 25, pm := v.getMsbD 28, ce := v.getMsbD 29, c := v.getMsbD 31 } 2) ∧
    (v &&& ~~~0x0000CDCD#32 ≠ 0 → exec (.mvtc 0 r) s = .refused .fixedZeroBit) ∧
    CompletesAt (.mvtc 1 r) s (s.fallThrough 2) ∧
    (∃ t, exec (.mvtc 2 r) s = .next t ∧ Leaves s t (s.fallThrough 2) (regs := [(.spi, v)])) ∧
    (∃ t, exec (.mvtc 3 r) s = .next t ∧ Leaves s t (s.fallThrough 2) (regs := [(.spu, v)])) ∧
    (s.evbWritten = false → v &&& 0x0000FFFF#32 ≠ 0 → exec (.mvtc 5 r) s = .refused .fixedZeroBit) ∧
    (s.evbWritten = false → v &&& 0x0000FFFF#32 = 0 →
      ∃ t e, exec (.mvtc 5 r) s = .next t ∧ Leaves s t (s.fallThrough 2) (evb := e) (evbWritten := true) ∧
        ∀ k, k < 32 → e.getMsbD k = (decide (1 ≤ k ∧ k ≤ 15) && v.getMsbD k)) ∧
    (∃ t e, exec (.mvtc 6 r) s = .next t ∧ Leaves s t (s.fallThrough 2) (bpc := e) ∧
      ∀ k, k < 32 → e.getMsbD k = (decide (k ≠ 31) && v.getMsbD k)) ∧
    (s.evbWritten = true → exec (.mvtc 5 r) s = .refused .evbWrittenTwice) ∧
    (∀ n : BitVec 4, n ∉ [0, 1, 2, 3, 5, 6] → exec (.mvtc n r) s = .refused (.unassignedControlRegister n)) ∧
    (∀ n : BitVec 4, EncodedAs (.mvtc n r) (.half (0b0001#4 ++ n ++ 0b1010#4 ++ r)) ∧ category (.mvtc n r) = .left)

/-- R130 to R136 and R222, with the encodings the rules print. -/
def Obligations.compare_and_test_results : Prop :=
  ∀ (s : State) (a b r : Reg) (h : Half) (k : BitVec 3),
    CompletesC (.cmp a b) s (decide ((s.getReg a).toInt < (s.getReg b).toInt)) 2 ∧
    EncodedAs (.cmp a b) (.half (0b0000#4 ++ a ++ 0b0100#4 ++ b)) ∧
    CompletesC (.cmpeq a b) s (decide (s.getReg a = s.getReg b)) 2 ∧
    EncodedAs (.cmpeq a b) (.half (0b0000#4 ++ a ++ 0b0110#4 ++ b)) ∧
    CompletesC (.cmpi r h) s (decide ((s.getReg r).toInt < h.toInt)) 4 ∧
    EncodedAs (.cmpi r h) (.word (0b1000#4 ++ 0b0000#4 ++ 0b0100#4 ++ r ++ h)) ∧
    CompletesC (.cmpu a b) s (decide ((s.getReg a).toNat < (s.getReg b).toNat)) 2 ∧
    EncodedAs (.cmpu a b) (.half (0b0000#4 ++ a ++ 0b0101#4 ++ b)) ∧
    CompletesC (.cmpui r h) s
      (decide ((s.getReg r).toNat < if h.toNat < 32768 then h.toNat else h.toNat + 4294901760)) 4 ∧
    EncodedAs (.cmpui r h) (.word (0b1000#4 ++ 0b0000#4 ++ 0b0101#4 ++ r ++ h)) ∧
    CompletesC (.cmpz r) s (decide ((s.getReg r).toNat = 0)) 2 ∧
    EncodedAs (.cmpz r) (.half (0b0000#4 ++ 0b0000#4 ++ 0b0111#4 ++ r)) ∧
    CompletesC (.pcmpbz r) s (decide (∃ k : Fin 4, (s.getReg r).toNat / 256 ^ k.val % 256 = 0)) 2 ∧
    EncodedAs (.pcmpbz r) (.half (0b0000#4 ++ 0b0011#4 ++ 0b0111#4 ++ r)) ∧
    CompletesC (.btst k r) s (((s.getReg r).setWidth 8).getMsbD k.toNat) 2 ∧
    EncodedAs (.btst k r) (.half (0b0000#4 ++ 0b0#1 ++ k ++ 0b1111#4 ++ r)) ∧ category (.btst k r) = .left ∧
    decode16 (0b0000#4 ++ 0b1#1 ++ k ++ 0b1111#4 ++ r) = none

/-- R137, R138, R139, R143, R144, with the encodings the rules print. -/
def Obligations.add_sub_results : Prop :=
  ∀ (s : State) (d r : Reg) (c : BitVec 8) (h : Half),
    CompletesReg (.add d r) s d (BitVec.ofNat 32 ((s.getReg d).toNat + (s.getReg r).toNat)) 2 ∧
    EncodedAs (.add d r) (.half (0b0000#4 ++ d ++ 0b1010#4 ++ r)) ∧
    CompletesReg (.add3 d r h) s d (BitVec.ofInt 32 ((s.getReg r).toInt + h.toInt)) 4 ∧
    EncodedAs (.add3 d r h) (.word (0b1000#4 ++ d ++ 0b1010#4 ++ r ++ h)) ∧
    CompletesReg (.addi d c) s d (BitVec.ofInt 32 ((s.getReg d).toInt + c.toInt)) 2 ∧
    EncodedAs (.addi d c) (.half (0b0100#4 ++ d ++ c)) ∧
    CompletesReg (.neg d r) s d (BitVec.ofInt 32 (-(s.getReg r).toInt)) 2 ∧
    EncodedAs (.neg d r) (.half (0b0000#4 ++ d ++ 0b0011#4 ++ r)) ∧
    CompletesReg (.sub d r) s d (BitVec.ofInt 32 ((s.getReg d).toInt - (s.getReg r).toInt)) 2 ∧
    EncodedAs (.sub d r) (.half (0b0000#4 ++ d ++ 0b0010#4 ++ r))

/-- R140, R141, R145, with the encodings the rules print. -/
def Obligations.overflow_checking_results : Prop :=
  ∀ (s : State) (d r : Reg) (h : Half),
    (let n : Int := (s.getReg d).toInt + (s.getReg r).toInt;
      CompletesRegC (.addv d r) s d (BitVec.ofInt 32 n) (decide (n < -2147483648 ∨ 2147483647 < n)) 2) ∧
    EncodedAs (.addv d r) (.half (0b0000#4 ++ d ++ 0b1000#4 ++ r)) ∧
    (let n : Int := (s.getReg r).toInt + h.toInt;
      CompletesRegC (.addv3 d r h) s d (BitVec.ofInt 32 n) (decide (n < -2147483648 ∨ 2147483647 < n)) 4) ∧
    EncodedAs (.addv3 d r h) (.word (0b1000#4 ++ d ++ 0b1000#4 ++ r ++ h)) ∧
    (let n : Int := (s.getReg d).toInt - (s.getReg r).toInt;
      CompletesRegC (.subv d r) s d (BitVec.ofInt 32 n) (decide (n < -2147483648 ∨ 2147483647 < n)) 2) ∧
    EncodedAs (.subv d r) (.half (0b0000#4 ++ d ++ 0b0000#4 ++ r))

/-- R142, R146, with the encodings the rules print. -/
def Obligations.carry_results : Prop :=
  ∀ (s : State) (d r : Reg),
    let c : Int := if s.psw.c then 1 else 0
    (let n : Int := (s.getReg d).toNat + (s.getReg r).toNat + c;
      CompletesRegC (.addx d r) s d (BitVec.ofInt 32 n) (decide (4294967295 < n)) 2) ∧
    EncodedAs (.addx d r) (.half (0b0000#4 ++ d ++ 0b1001#4 ++ r)) ∧
    (let n : Int := (s.getReg d).toNat - (s.getReg r).toNat - c;
      CompletesRegC (.subx d r) s d (BitVec.ofInt 32 n) (decide (n < 0)) 2) ∧
    EncodedAs (.subx d r) (.half (0b0000#4 ++ d ++ 0b0001#4 ++ r))

/-- R147 to R153, with the encodings the rules print. -/
def Obligations.logic_results : Prop :=
  ∀ (s : State) (d r : Reg) (h : Half),
    CompletesReg (.and d r) s d (BitVec.ofNat 32 ((s.getReg d).toNat &&& (s.getReg r).toNat)) 2 ∧
    EncodedAs (.and d r) (.half (0b0000#4 ++ d ++ 0b1100#4 ++ r)) ∧
    CompletesReg (.and3 d r h) s d (BitVec.ofNat 32 ((s.getReg r).toNat &&& h.toNat)) 4 ∧
    EncodedAs (.and3 d r h) (.word (0b1000#4 ++ d ++ 0b1100#4 ++ r ++ h)) ∧
    CompletesReg (.not d r) s d (BitVec.ofNat 32 (4294967295 - (s.getReg r).toNat)) 2 ∧
    EncodedAs (.not d r) (.half (0b0000#4 ++ d ++ 0b1011#4 ++ r)) ∧
    CompletesReg (.or d r) s d (BitVec.ofNat 32 ((s.getReg d).toNat ||| (s.getReg r).toNat)) 2 ∧
    EncodedAs (.or d r) (.half (0b0000#4 ++ d ++ 0b1110#4 ++ r)) ∧
    CompletesReg (.or3 d r h) s d (BitVec.ofNat 32 ((s.getReg r).toNat ||| h.toNat)) 4 ∧
    EncodedAs (.or3 d r h) (.word (0b1000#4 ++ d ++ 0b1110#4 ++ r ++ h)) ∧
    CompletesReg (.xor d r) s d (BitVec.ofNat 32 ((s.getReg d).toNat ^^^ (s.getReg r).toNat)) 2 ∧
    EncodedAs (.xor d r) (.half (0b0000#4 ++ d ++ 0b1101#4 ++ r)) ∧
    CompletesReg (.xor3 d r h) s d (BitVec.ofNat 32 ((s.getReg r).toNat ^^^ h.toNat)) 4 ∧
    EncodedAs (.xor3 d r h) (.word (0b1000#4 ++ d ++ 0b1101#4 ++ r ++ h))

/-- R174 to R182, with the encodings and categories the rules print. -/
def Obligations.shift_results : Prop :=
  ∀ (s : State) (d r : Reg) (h : Half) (k : BitVec 5),
    CompletesReg (.sll d r) s d (BitVec.ofNat 32 ((s.getReg d).toNat * 2 ^ ((s.getReg r).toNat % 32))) 2 ∧
    EncodedAs (.sll d r) (.half (0b0001#4 ++ d ++ 0b0100#4 ++ r)) ∧
    category (.sll d r) = .both ∧
    CompletesReg (.sll3 d r h) s d (BitVec.ofNat 32 ((s.getReg r).toNat * 2 ^ (h.toNat % 32))) 4 ∧
    EncodedAs (.sll3 d r h) (.word (0b1001#4 ++ d ++ 0b1100#4 ++ r ++ h)) ∧
    CompletesReg (.slli d k) s d (BitVec.ofNat 32 ((s.getReg d).toNat * 2 ^ (k.toNat))) 2 ∧
    EncodedAs (.slli d k) (.half (0b0101#4 ++ d ++ 0b010#3 ++ k)) ∧
    category (.slli d k) = .both ∧
    CompletesReg (.sra d r) s d (BitVec.ofInt 32 ((s.getReg d).toInt / 2 ^ ((s.getReg r).toNat % 32))) 2 ∧
    EncodedAs (.sra d r) (.half (0b0001#4 ++ d ++ 0b0010#4 ++ r)) ∧
    category (.sra d r) = .both ∧
    CompletesReg (.sra3 d r h) s d (BitVec.ofInt 32 ((s.getReg r).toInt / 2 ^ (h.toNat % 32))) 4 ∧
    EncodedAs (.sra3 d r h) (.word (0b1001#4 ++ d ++ 0b1010#4 ++ r ++ h)) ∧
    CompletesReg (.srai d k) s d (BitVec.ofInt 32 ((s.getReg d).toInt / 2 ^ (k.toNat))) 2 ∧
    EncodedAs (.srai d k) (.half (0b0101#4 ++ d ++ 0b001#3 ++ k)) ∧
    category (.srai d k) = .both ∧
    CompletesReg (.srl d r) s d (BitVec.ofNat 32 ((s.getReg d).toNat / 2 ^ ((s.getReg r).toNat % 32))) 2 ∧
    EncodedAs (.srl d r) (.half (0b0001#4 ++ d ++ 0b0000#4 ++ r)) ∧
    category (.srl d r) = .both ∧
    CompletesReg (.srl3 d r h) s d (BitVec.ofNat 32 ((s.getReg r).toNat / 2 ^ (h.toNat % 32))) 4 ∧
    EncodedAs (.srl3 d r h) (.word (0b1001#4 ++ d ++ 0b1000#4 ++ r ++ h)) ∧
    CompletesReg (.srli d k) s d (BitVec.ofNat 32 ((s.getReg d).toNat / 2 ^ (k.toNat))) 2 ∧
    EncodedAs (.srli d k) (.half (0b0101#4 ++ d ++ 0b000#3 ++ k)) ∧
    category (.srli d k) = .both

/-- R161 to R163, R168 to R170. For -2^31 by -1 the value is a free one: any `v`. -/
def Obligations.signed_division_and_remainder : Prop :=
  ∀ (s : State) (d r : Reg),
    let q : Int → Int := fun n => n - Int.tdiv n (s.getReg r).toInt * (s.getReg r).toInt
    ((s.getReg r = 0 → CompletesAt (.div d r) s (s.fallThrough 4)) ∧
      (s.getReg d = 0x80000000 → s.getReg r = 0xFFFFFFFF → ∃ v, CompletesReg (.div d r) s d v 4) ∧
      (s.getReg r ≠ 0 → ¬ (s.getReg d = 0x80000000 ∧ s.getReg r = 0xFFFFFFFF) →
        CompletesReg (.div d r) s d (BitVec.ofInt 32 (Int.tdiv (s.getReg d).toInt (s.getReg r).toInt)) 4) ∧
      EncodedAs (.div d r) (.word (0b1001#4 ++ d ++ 0b0000#4 ++ r ++ 0b0000000000000000#16))) ∧
    ((s.getReg r = 0 → CompletesAt (.divb d r) s (s.fallThrough 4)) ∧
      (s.getReg r ≠ 0 →
        CompletesReg (.divb d r) s d (BitVec.ofInt 32 (Int.tdiv (signedReading 8 ((s.getReg d).toNat % 256)) (s.getReg r).toInt)) 4) ∧
      EncodedAs (.divb d r) (.word (0b1001#4 ++ d ++ 0b0000#4 ++ r ++ 0b0000000000011000#16))) ∧
    ((s.getReg r = 0 → CompletesAt (.divh d r) s (s.fallThrough 4)) ∧
      (s.getReg r ≠ 0 →
        CompletesReg (.divh d r) s d (BitVec.ofInt 32 (Int.tdiv (signedReading 16 ((s.getReg d).toNat % 65536)) (s.getReg r).toInt)) 4) ∧
      EncodedAs (.divh d r) (.word (0b1001#4 ++ d ++ 0b0000#4 ++ r ++ 0b0000000000010000#16))) ∧
    ((s.getReg r = 0 → CompletesAt (.rem d r) s (s.fallThrough 4)) ∧
      (s.getReg d = 0x80000000 → s.getReg r = 0xFFFFFFFF → ∃ v, CompletesReg (.rem d r) s d v 4) ∧
      (s.getReg r ≠ 0 → ¬ (s.getReg d = 0x80000000 ∧ s.getReg r = 0xFFFFFFFF) →
        CompletesReg (.rem d r) s d (BitVec.ofInt 32 (q (s.getReg d).toInt)) 4) ∧
      EncodedAs (.rem d r) (.word (0b1001#4 ++ d ++ 0b0010#4 ++ r ++ 0b0000000000000000#16))) ∧
    ((s.getReg r = 0 → CompletesAt (.remb d r) s (s.fallThrough 4)) ∧
      (s.getReg r ≠ 0 →
        CompletesReg (.remb d r) s d (BitVec.ofInt 32 (q (signedReading 8 ((s.getReg d).toNat % 256)))) 4) ∧
      EncodedAs (.remb d r) (.word (0b1001#4 ++ d ++ 0b0010#4 ++ r ++ 0b0000000000011000#16))) ∧
    ((s.getReg r = 0 → CompletesAt (.remh d r) s (s.fallThrough 4)) ∧
      (s.getReg r ≠ 0 →
        CompletesReg (.remh d r) s d (BitVec.ofInt 32 (q (signedReading 16 ((s.getReg d).toNat % 65536)))) 4) ∧
      EncodedAs (.remh d r) (.word (0b1001#4 ++ d ++ 0b0010#4 ++ r ++ 0b0000000000010000#16)))

/-- R164 to R166, R171 to R173, with the encodings the rules print. -/
def Obligations.unsigned_division_and_remainder : Prop :=
  ∀ (s : State) (d r : Reg),
    ((s.getReg r = 0 → CompletesAt (.divu d r) s (s.fallThrough 4)) ∧
      (s.getReg r ≠ 0 →
        CompletesReg (.divu d r) s d (BitVec.ofNat 32 ((s.getReg d).toNat / (s.getReg r).toNat)) 4) ∧
      EncodedAs (.divu d r) (.word (0b1001#4 ++ d ++ 0b0001#4 ++ r ++ 0b0000000000000000#16))) ∧
    ((s.getReg r = 0 → CompletesAt (.divub d r) s (s.fallThrough 4)) ∧
      (s.getReg r ≠ 0 →
        CompletesReg (.divub d r) s d (BitVec.ofNat 32 ((s.getReg d).toNat % 256 / (s.getReg r).toNat)) 4) ∧
      EncodedAs (.divub d r) (.word (0b1001#4 ++ d ++ 0b0001#4 ++ r ++ 0b0000000000011000#16))) ∧
    ((s.getReg r = 0 → CompletesAt (.divuh d r) s (s.fallThrough 4)) ∧
      (s.getReg r ≠ 0 →
        CompletesReg (.divuh d r) s d (BitVec.ofNat 32 ((s.getReg d).toNat % 65536 / (s.getReg r).toNat)) 4) ∧
      EncodedAs (.divuh d r) (.word (0b1001#4 ++ d ++ 0b0001#4 ++ r ++ 0b0000000000010000#16))) ∧
    ((s.getReg r = 0 → CompletesAt (.remu d r) s (s.fallThrough 4)) ∧
      (s.getReg r ≠ 0 →
        CompletesReg (.remu d r) s d (BitVec.ofNat 32 ((s.getReg d).toNat % (s.getReg r).toNat)) 4) ∧
      EncodedAs (.remu d r) (.word (0b1001#4 ++ d ++ 0b0011#4 ++ r ++ 0b0000000000000000#16))) ∧
    ((s.getReg r = 0 → CompletesAt (.remub d r) s (s.fallThrough 4)) ∧
      (s.getReg r ≠ 0 →
        CompletesReg (.remub d r) s d (BitVec.ofNat 32 ((s.getReg d).toNat % 256 % (s.getReg r).toNat)) 4) ∧
      EncodedAs (.remub d r) (.word (0b1001#4 ++ d ++ 0b0011#4 ++ r ++ 0b0000000000011000#16))) ∧
    ((s.getReg r = 0 → CompletesAt (.remuh d r) s (s.fallThrough 4)) ∧
      (s.getReg r ≠ 0 →
        CompletesReg (.remuh d r) s d (BitVec.ofNat 32 ((s.getReg d).toNat % 65536 % (s.getReg r).toNat)) 4) ∧
      EncodedAs (.remuh d r) (.word (0b1001#4 ++ d ++ 0b0011#4 ++ r ++ 0b0000000000010000#16)))

/-- R167. The accumulators afterwards are free: any `x`, `y`. -/
def Obligations.mul_product_and_accumulators : Prop :=
  ∀ (s : State) (d r : Reg),
    (∃ t x y, exec (.mul d r) s = .next t ∧
      Leaves s t (s.fallThrough 2) (regs := [(s.physReg d, BitVec.ofInt 32 ((s.getReg d).toInt * (s.getReg r).toInt))])
        (acc0 := x) (acc1 := y)) ∧
    EncodedAs (.mul d r) (.half (0b0001#4 ++ d ++ 0b0110#4 ++ r)) ∧ category (.mul d r) = .right

/-- R101 to R105, with AE, the update and the encodings. That LD Rn,@Rn+ is refused is a choice: R111 with decision
D28, notes/assumptions/23.md. -/
def Obligations.loads_results : Prop :=
  ∀ (s : State) (d b : Reg) (q : Half),
    Loads (.ld d b) s d (s.eaReg b) 4 (BitVec.ofNat 32 (bytesAt s.mem (s.eaReg b).toNat 4)) 2 ∧
    Loads (.ldDisp d b q) s d (s.eaDisp b q) 4 (BitVec.ofNat 32 (bytesAt s.mem (s.eaDisp b q).toNat 4)) 4 ∧
    (Accessible s (s.eaReg b) 4 → d ≠ b → ∃ t, exec (.ldPost d b) s = .next t ∧
      Leaves s t (s.fallThrough 2)
        (regs := [(s.physReg d, BitVec.ofNat 32 (bytesAt s.mem (s.eaReg b).toNat 4)), (s.physReg b, s.eaReg b + 4)])) ∧
    (Accessible s (s.eaReg b) 4 → d = b → exec (.ldPost d b) s = .refused .updateOfDataRegister) ∧
    ((s.eaReg b).toNat % 4 ≠ 0 → Raises (.ldPost d b) s .ae) ∧
    EncodedAs (.ld d b) (.half (0b0010#4 ++ d ++ 0b1100#4 ++ b)) ∧
    EncodedAs (.ldPost d b) (.half (0b0010#4 ++ d ++ 0b1110#4 ++ b)) ∧
    EncodedAs (.ldDisp d b q) (.word (0b1010#4 ++ d ++ 0b1100#4 ++ b ++ q)) ∧
    Loads (.ldb d b) s d (s.eaReg b) 1
      (BitVec.ofInt 32 (signedReading 8 (bytesAt s.mem (s.eaReg b).toNat 1))) 2 ∧
    EncodedAs (.ldb d b) (.half (0b0010#4 ++ d ++ 0b1000#4 ++ b)) ∧
    Loads (.ldbDisp d b q) s d (s.eaDisp b q) 1
      (BitVec.ofInt 32 (signedReading 8 (bytesAt s.mem (s.eaDisp b q).toNat 1))) 4 ∧
    EncodedAs (.ldbDisp d b q) (.word (0b1010#4 ++ d ++ 0b1000#4 ++ b ++ q)) ∧
    Loads (.ldub d b) s d (s.eaReg b) 1 (BitVec.ofNat 32 (bytesAt s.mem (s.eaReg b).toNat 1)) 2 ∧
    EncodedAs (.ldub d b) (.half (0b0010#4 ++ d ++ 0b1001#4 ++ b)) ∧
    Loads (.ldubDisp d b q) s d (s.eaDisp b q) 1 (BitVec.ofNat 32 (bytesAt s.mem (s.eaDisp b q).toNat 1)) 4 ∧
    EncodedAs (.ldubDisp d b q) (.word (0b1010#4 ++ d ++ 0b1001#4 ++ b ++ q)) ∧
    Loads (.ldh d b) s d (s.eaReg b) 2
      (BitVec.ofInt 32 (signedReading 16 (bytesAt s.mem (s.eaReg b).toNat 2))) 2 ∧
    EncodedAs (.ldh d b) (.half (0b0010#4 ++ d ++ 0b1010#4 ++ b)) ∧
    Loads (.ldhDisp d b q) s d (s.eaDisp b q) 2
      (BitVec.ofInt 32 (signedReading 16 (bytesAt s.mem (s.eaDisp b q).toNat 2))) 4 ∧
    EncodedAs (.ldhDisp d b q) (.word (0b1010#4 ++ d ++ 0b1010#4 ++ b ++ q)) ∧
    Loads (.lduh d b) s d (s.eaReg b) 2 (BitVec.ofNat 32 (bytesAt s.mem (s.eaReg b).toNat 2)) 2 ∧
    EncodedAs (.lduh d b) (.half (0b0010#4 ++ d ++ 0b1011#4 ++ b)) ∧
    Loads (.lduhDisp d b q) s d (s.eaDisp b q) 2 (BitVec.ofNat 32 (bytesAt s.mem (s.eaDisp b q).toNat 2)) 4 ∧
    EncodedAs (.lduhDisp d b q) (.word (0b1010#4 ++ d ++ 0b1011#4 ++ b ++ q))

/-- R106, R110 (decision D33), with AE and the encodings. -/
def Obligations.lock_and_unlock : Prop :=
  ∀ (s : State) (d b : Reg), s.mem.wf = true →
    (Accessible s (s.eaReg b) 4 →
      ∃ t, exec (.lock d b) s = .next t ∧
        Leaves s t (s.fallThrough 2) (regs := [(s.physReg d, BitVec.ofNat 32 (bytesAt s.mem (s.eaReg b).toNat 4))])
          (lock := true)) ∧
    ((s.eaReg b).toNat % 4 ≠ 0 → Raises (.lock d b) s .ae) ∧
    (s.lock = false → ∃ t, exec (.unlock d b) s = .next t ∧ Leaves s t (s.fallThrough 2) (lock := false)) ∧
    (s.lock = true → Accessible s (s.eaReg b) 4 →
      ∃ t, exec (.unlock d b) s = .next t ∧
        Leaves s t (s.fallThrough 2) (lock := false)
          (ea := (s.eaReg b).toNat) (bytes := bigEndian (s.getReg d).toNat 4)) ∧
    (s.lock = true → (s.eaReg b).toNat % 4 ≠ 0 → Raises (.unlock d b) s .ae) ∧
    EncodedAs (.lock d b) (.half (0b0010#4 ++ d ++ 0b1101#4 ++ b)) ∧
      EncodedAs (.unlock d b) (.half (0b0010#4 ++ d ++ 0b0101#4 ++ b))

/-- R107, with the update, AE and the encodings. That a form with update is refused where Rsrc1 is its base is a
choice: R111 with decision D28, notes/assumptions/23.md. -/
def Obligations.store_word : Prop :=
  ∀ (s : State) (a b : Reg) (q : Half), s.mem.wf = true →
    Stores (.st a b) s (s.eaReg b) (bigEndian (s.getReg a).toNat 4) 2 ∧
    EncodedAs (.st a b) (.half (0b0010#4 ++ a ++ 0b0100#4 ++ b)) ∧
    StoresWithUpdate (.stPreInc a b) s a b (s.eaPreInc b) (bigEndian (s.getReg a).toNat 4) (s.getReg b + 4) ∧
    EncodedAs (.stPreInc a b) (.half (0b0010#4 ++ a ++ 0b0110#4 ++ b)) ∧
    StoresWithUpdate (.stPreDec a b) s a b (s.eaPreDec b) (bigEndian (s.getReg a).toNat 4) (s.getReg b - 4) ∧
    EncodedAs (.stPreDec a b) (.half (0b0010#4 ++ a ++ 0b0111#4 ++ b)) ∧
    Stores (.stDisp a b q) s (s.eaDisp b q) (bigEndian (s.getReg a).toNat 4) 4 ∧
    EncodedAs (.stDisp a b q) (.word (0b1010#4 ++ a ++ 0b0100#4 ++ b ++ q))

/-- R108, with the update, AE and the encodings. That a form with update is refused where Rsrc1 is its base is a
choice: R111 with decision D28, notes/assumptions/23.md. -/
def Obligations.store_byte : Prop :=
  ∀ (s : State) (a b : Reg) (q : Half), s.mem.wf = true →
    Stores (.stb a b) s (s.eaReg b) (bigEndian (s.getReg a).toNat 1) 2 ∧
    EncodedAs (.stb a b) (.half (0b0010#4 ++ a ++ 0b0000#4 ++ b)) ∧
    StoresWithUpdate (.stbPost a b) s a b (s.eaReg b) (bigEndian (s.getReg a).toNat 1) (s.getReg b + 1) ∧
    EncodedAs (.stbPost a b) (.half (0b0010#4 ++ a ++ 0b0001#4 ++ b)) ∧
    Stores (.stbDisp a b q) s (s.eaDisp b q) (bigEndian (s.getReg a).toNat 1) 4 ∧
    EncodedAs (.stbDisp a b q) (.word (0b1010#4 ++ a ++ 0b0000#4 ++ b ++ q))

/-- R109, with the update, AE and the encodings. That a form with update is refused where Rsrc1 is its base is a
choice: R111 with decision D28, notes/assumptions/23.md. -/
def Obligations.store_half : Prop :=
  ∀ (s : State) (a b : Reg) (q : Half), s.mem.wf = true →
    Stores (.sth a b) s (s.eaReg b) (bigEndian (s.getReg a).toNat 2) 2 ∧
    EncodedAs (.sth a b) (.half (0b0010#4 ++ a ++ 0b0010#4 ++ b)) ∧
    StoresWithUpdate (.sthPost a b) s a b (s.eaReg b) (bigEndian (s.getReg a).toNat 2) (s.getReg b + 2) ∧
    EncodedAs (.sthPost a b) (.half (0b0010#4 ++ a ++ 0b0011#4 ++ b)) ∧
    Stores (.sthDisp a b q) s (s.eaDisp b q) (bigEndian (s.getReg a).toNat 2) 4 ∧
    EncodedAs (.sthDisp a b q) (.word (0b1010#4 ++ a ++ 0b0010#4 ++ b ++ q))

/-- R220, R221: one bit of the byte, and its frame. -/
def Obligations.bit_set_and_clear : Prop :=
  ∀ (s : State) (k : BitVec 3) (b : Reg) (q : Half), s.mem.wf = true →
    (Accessible s (s.eaDisp b q) 1 →
      (∃ x : Byte, CompletesStore (.bset k b q) s (s.eaDisp b q) [x] 4 ∧
        ∀ j, j < 8 → x.getMsbD j =
          if j = k.toNat then true else (s.mem.readByte (s.eaDisp b q).toNat).getMsbD j) ∧
      (∃ x : Byte, CompletesStore (.bclr k b q) s (s.eaDisp b q) [x] 4 ∧
        ∀ j, j < 8 → x.getMsbD j =
          if j = k.toNat then false else (s.mem.readByte (s.eaDisp b q).toNat).getMsbD j)) ∧
    EncodedAs (.bset k b q) (.word (0b1010#4 ++ 0b0#1 ++ k ++ 0b0110#4 ++ b ++ q)) ∧
    EncodedAs (.bclr k b q) (.word (0b1010#4 ++ 0b0#1 ++ k ++ 0b0111#4 ++ b ++ q))

/-- R223, R224. That SETPSW of an unsupported bit is refused is a choice: decision D5, notes/assumptions/9.md. -/
def Obligations.psw_set_and_clear : Prop :=
  ∀ (s : State) (m : BitVec 8),
    (s.psw.pm = false →
      (m &&& 0x32#8 = 0 → CompletesPsw (.setpsw m) s
        { s.psw with
          sm := s.psw.sm || m.getMsbD 0, ie := s.psw.ie || m.getMsbD 1, pm := s.psw.pm || m.getMsbD 4
          ce := s.psw.ce || m.getMsbD 5, c := s.psw.c || m.getMsbD 7 } 2) ∧
      (m &&& 0x32#8 ≠ 0 → exec (.setpsw m) s = .refused .fixedZeroBit) ∧
      CompletesPsw (.clrpsw m) s
        { s.psw with
          sm := s.psw.sm && !m.getMsbD 0, ie := s.psw.ie && !m.getMsbD 1, pm := s.psw.pm && !m.getMsbD 4
          ce := s.psw.ce && !m.getMsbD 5, c := s.psw.c && !m.getMsbD 7 } 2) ∧
    (s.psw.pm = true → Raises (.setpsw m) s .pie ∧ Raises (.clrpsw m) s .pie) ∧
    EncodedAs (.setpsw m) (.half (0b0111#4 ++ 0b0001#4 ++ m)) ∧ category (.setpsw m) = .left ∧
    EncodedAs (.clrpsw m) (.half (0b0111#4 ++ 0b0010#4 ++ m)) ∧ category (.clrpsw m) = .left

/-- R191, R200, R205, R208, with the encodings the rules print. -/
def Obligations.branches_on_c : Prop :=
  ∀ (s : State) (r : Reg) (p : BitVec 8) (w : BitVec 24),
    CompletesAt (.bc8 p) s (if s.psw.c = true then s.relative p.toInt else s.fallThrough 2) ∧
    EncodedAs (.bc8 p) (.half (0b0111#4 ++ 0b1100#4 ++ p)) ∧
    CompletesAt (.bc24 w) s (if s.psw.c = true then s.relative w.toInt else s.fallThrough 4) ∧
    EncodedAs (.bc24 w) (.word (0b1111#4 ++ 0b1100#4 ++ w)) ∧
    CompletesAt (.bnc8 p) s (if s.psw.c = false then s.relative p.toInt else s.fallThrough 2) ∧
    EncodedAs (.bnc8 p) (.half (0b0111#4 ++ 0b1101#4 ++ p)) ∧
    CompletesAt (.bnc24 w) s (if s.psw.c = false then s.relative w.toInt else s.fallThrough 4) ∧
    EncodedAs (.bnc24 w) (.word (0b1111#4 ++ 0b1101#4 ++ w)) ∧
    CompletesAt (.jc r) s (if s.psw.c = true then aligned (s.getReg r) else s.fallThrough 2) ∧
    EncodedAs (.jc r) (.half (0b0001#4 ++ 0b1100#4 ++ 0b1100#4 ++ r)) ∧
    CompletesAt (.jnc r) s (if s.psw.c = false then aligned (s.getReg r) else s.fallThrough 2) ∧
    EncodedAs (.jnc r) (.half (0b0001#4 ++ 0b1101#4 ++ 0b1100#4 ++ r))

/-- R193 to R196, R198, R199, R202, R203, with the encodings the rules print. -/
def Obligations.compare_and_branch : Prop :=
  ∀ (s : State) (a b r : Reg) (h : Half),
    CompletesAt (.beq a b h) s (if s.getReg a = s.getReg b then s.relative h.toInt else s.fallThrough 4) ∧
    EncodedAs (.beq a b h) (.word (0b1011#4 ++ a ++ 0b0000#4 ++ b ++ h)) ∧
    CompletesAt (.bne a b h) s (if s.getReg a ≠ s.getReg b then s.relative h.toInt else s.fallThrough 4) ∧
    EncodedAs (.bne a b h) (.word (0b1011#4 ++ a ++ 0b0001#4 ++ b ++ h)) ∧
    CompletesAt (.beqz r h) s (if (s.getReg r).toInt = 0 then s.relative h.toInt else s.fallThrough 4) ∧
    EncodedAs (.beqz r h) (.word (0b1011#4 ++ 0b0000#4 ++ 0b1000#4 ++ r ++ h)) ∧
    CompletesAt (.bnez r h) s (if (s.getReg r).toInt ≠ 0 then s.relative h.toInt else s.fallThrough 4) ∧
    EncodedAs (.bnez r h) (.word (0b1011#4 ++ 0b0000#4 ++ 0b1001#4 ++ r ++ h)) ∧
    CompletesAt (.bltz r h) s (if (s.getReg r).toInt < 0 then s.relative h.toInt else s.fallThrough 4) ∧
    EncodedAs (.bltz r h) (.word (0b1011#4 ++ 0b0000#4 ++ 0b1010#4 ++ r ++ h)) ∧
    CompletesAt (.bgez r h) s (if (s.getReg r).toInt ≥ 0 then s.relative h.toInt else s.fallThrough 4) ∧
    EncodedAs (.bgez r h) (.word (0b1011#4 ++ 0b0000#4 ++ 0b1011#4 ++ r ++ h)) ∧
    CompletesAt (.blez r h) s (if (s.getReg r).toInt ≤ 0 then s.relative h.toInt else s.fallThrough 4) ∧
    EncodedAs (.blez r h) (.word (0b1011#4 ++ 0b0000#4 ++ 0b1100#4 ++ r ++ h)) ∧
    CompletesAt (.bgtz r h) s (if (s.getReg r).toInt > 0 then s.relative h.toInt else s.fallThrough 4) ∧
    EncodedAs (.bgtz r h) (.word (0b1011#4 ++ 0b0000#4 ++ 0b1101#4 ++ r ++ h))

/-- R204, R207, R209, with the encodings the rules print. -/
def Obligations.unconditional_branches_and_nop : Prop :=
  ∀ (s : State) (r : Reg) (p : BitVec 8) (w : BitVec 24),
    CompletesAt (.bra8 p) s (s.relative p.toInt) ∧
    EncodedAs (.bra8 p) (.half (0b0111#4 ++ 0b1111#4 ++ p)) ∧
    CompletesAt (.bra24 w) s (s.relative w.toInt) ∧
    EncodedAs (.bra24 w) (.word (0b1111#4 ++ 0b1111#4 ++ w)) ∧
    CompletesAt (.jmp r) s (aligned (s.getReg r)) ∧
    EncodedAs (.jmp r) (.half (0b0001#4 ++ 0b1111#4 ++ 0b1100#4 ++ r)) ∧
    (s.pc.toNat % 4 = 0 → CompletesAt (.bra8 0) s s.pc ∧ CompletesAt (.bra24 0) s s.pc) ∧
    CompletesAt .nop s (s.fallThrough 2) ∧
    EncodedAs .nop (.half (0b0111#4 ++ 0b0000#4 ++ 0b0000#4 ++ 0b0000#4)) ∧
    category .nop = .both ∧
    decode16 (0xF000#16 &&& 0x7FFF#16) = some .nop

/-- R192, R201, R197, R206, with the encodings the rules print. That JL R14 is refused is a choice: decision D34,
notes/assumptions/23.md. -/
def Obligations.calls : Prop :=
  ∀ (s : State) (r : Reg) (p : BitVec 8) (w : BitVec 24),
    (if s.psw.c = true then CompletesLink (.bcl8 p) s (s.relative p.toInt)
      else CompletesAt (.bcl8 p) s (s.fallThrough 2)) ∧
    EncodedAs (.bcl8 p) (.half (0b0111#4 ++ 0b1000#4 ++ p)) ∧
    (if s.psw.c = true then CompletesLink (.bcl24 w) s (s.relative w.toInt)
      else CompletesAt (.bcl24 w) s (s.fallThrough 4)) ∧
    EncodedAs (.bcl24 w) (.word (0b1111#4 ++ 0b1000#4 ++ w)) ∧
    (if s.psw.c = false then CompletesLink (.bncl8 p) s (s.relative p.toInt)
      else CompletesAt (.bncl8 p) s (s.fallThrough 2)) ∧
    EncodedAs (.bncl8 p) (.half (0b0111#4 ++ 0b1001#4 ++ p)) ∧
    (if s.psw.c = false then CompletesLink (.bncl24 w) s (s.relative w.toInt)
      else CompletesAt (.bncl24 w) s (s.fallThrough 4)) ∧
    EncodedAs (.bncl24 w) (.word (0b1111#4 ++ 0b1001#4 ++ w)) ∧
    CompletesLink (.bl8 p) s (s.relative p.toInt) ∧
    EncodedAs (.bl8 p) (.half (0b0111#4 ++ 0b1110#4 ++ p)) ∧
    CompletesLink (.bl24 w) s (s.relative w.toInt) ∧
    EncodedAs (.bl24 w) (.word (0b1111#4 ++ 0b1110#4 ++ w)) ∧
    (if r = 14 then exec (.jl r) s = .refused .jumpLinkThroughLink
      else CompletesLink (.jl r) s (aligned (s.getReg r))) ∧
    EncodedAs (.jl r) (.half (0b0001#4 ++ 0b1110#4 ++ 0b1100#4 ++ r))

/-- R210, R211 (decision D30), R77: SC and SNC, alone and in a pair. -/
def Obligations.skip_instructions : Prop :=
  ∀ (s : State) (b : Instr),
    (s.issue = .alone → CompletesAt .sc s (s.pc + 2) ∧ CompletesAt .snc s (s.pc + 2)) ∧
    (s.issue = .alone → pairAllowed .sc b = true → s.psw.c = true →
      ∃ t, runPair .sc b s = .next t ∧ Leaves s t (BitVec.ofNat 32 (s.wordStart + 4))) ∧
    (s.issue = .alone → pairAllowed .snc b = true → s.psw.c = false →
      ∃ t, runPair .snc b s = .next t ∧ Leaves s t (BitVec.ofNat 32 (s.wordStart + 4))) ∧
    (pairAllowed .sc b = true → s.psw.c = false →
      ∃ t u, runPair .sc b s = .next t ∧ exec b { s with issue := .paired } = .next u ∧
        t.pc = BitVec.ofNat 32 (s.wordStart + 4) ∧ (∀ p, t.readStore p = u.readStore p) ∧ t.psw = u.psw ∧
        t.acc0 = u.acc0 ∧ t.acc1 = u.acc1 ∧ t.mem = s.mem) ∧
    (pairAllowed .snc b = true → s.psw.c = true →
      ∃ t u, runPair .snc b s = .next t ∧ exec b { s with issue := .paired } = .next u ∧
        t.pc = BitVec.ofNat 32 (s.wordStart + 4) ∧ (∀ p, t.readStore p = u.readStore p) ∧ t.psw = u.psw ∧
        t.acc0 = u.acc0 ∧ t.acc1 = u.acc1 ∧ t.mem = s.mem) ∧
    EncodedAs .sc (.half (0b0111#4 ++ 0b0100#4 ++ 0b0000#4 ++ 0b0001#4)) ∧ category .sc = .left ∧
    EncodedAs .snc (.half (0b0111#4 ++ 0b0101#4 ++ 0b0000#4 ++ 0b0001#4)) ∧ category .snc = .left

/-- R231 to R237, with the encodings the rules print. -/
def Obligations.multiply_accumulate : Prop :=
  ∀ (s : State) (x y : Reg) (a : Acc),
    CompletesAcc (.machi x y a) s a
      (BitVec.ofInt 64 (s.accInt a + hiInt (s.getReg x) * hiInt (s.getReg y) * 65536)) ∧
    EncodedAs (.machi x y a) (.half (0b0011#4 ++ x ++ accBit a ++ 0b100#3 ++ y)) ∧
    CompletesAcc (.maclh1 x y) s .a1
      (BitVec.ofInt 64 (s.accInt .a1 + loInt (s.getReg x) * hiInt (s.getReg y) * 65536)) ∧
    EncodedAs (.maclh1 x y) (.half (0b0101#4 ++ x ++ 0b1100#4 ++ y)) ∧
    CompletesAcc (.maclo x y a) s a
      (BitVec.ofInt 64 (s.accInt a + loInt (s.getReg x) * loInt (s.getReg y) * 65536)) ∧
    EncodedAs (.maclo x y a) (.half (0b0011#4 ++ x ++ accBit a ++ 0b101#3 ++ y)) ∧
    CompletesAcc (.macwhi x y) s .a0
      (BitVec.ofInt 64 (s.accInt .a0 + (s.getReg x).toInt * hiInt (s.getReg y))) ∧
    EncodedAs (.macwhi x y) (.half (0b0011#4 ++ x ++ 0b0110#4 ++ y)) ∧
    CompletesAcc (.macwlo x y) s .a0
      (BitVec.ofInt 64 (s.accInt .a0 + (s.getReg x).toInt * loInt (s.getReg y))) ∧
    EncodedAs (.macwlo x y) (.half (0b0011#4 ++ x ++ 0b0111#4 ++ y)) ∧
    CompletesAcc (.macwu1 x y) s .a1
      (BitVec.ofInt 64 (s.accInt .a1 + (s.getReg x).toInt * loNat (s.getReg y))) ∧
    EncodedAs (.macwu1 x y) (.half (0b0101#4 ++ x ++ 0b1011#4 ++ y)) ∧
    CompletesAcc (.msblo x y) s .a0
      (BitVec.ofInt 64 (s.accInt .a0 - loInt (s.getReg x) * loInt (s.getReg y) * 65536)) ∧
    EncodedAs (.msblo x y) (.half (0b0101#4 ++ x ++ 0b1101#4 ++ y))

/-- R238 to R242, with the encodings the rules print. -/
def Obligations.multiply_into_accumulator : Prop :=
  ∀ (s : State) (x y : Reg) (a : Acc),
    CompletesAcc (.mulhi x y a) s a (BitVec.ofInt 64 (hiInt (s.getReg x) * hiInt (s.getReg y) * 65536)) ∧
    EncodedAs (.mulhi x y a) (.half (0b0011#4 ++ x ++ accBit a ++ 0b000#3 ++ y)) ∧
    CompletesAcc (.mullo x y a) s a (BitVec.ofInt 64 (loInt (s.getReg x) * loInt (s.getReg y) * 65536)) ∧
    EncodedAs (.mullo x y a) (.half (0b0011#4 ++ x ++ accBit a ++ 0b001#3 ++ y)) ∧
    CompletesAcc (.mulwhi x y) s .a0 (BitVec.ofInt 64 ((s.getReg x).toInt * hiInt (s.getReg y))) ∧
    EncodedAs (.mulwhi x y) (.half (0b0011#4 ++ x ++ 0b0010#4 ++ y)) ∧
    CompletesAcc (.mulwlo x y) s .a0 (BitVec.ofInt 64 ((s.getReg x).toInt * loInt (s.getReg y))) ∧
    EncodedAs (.mulwlo x y) (.half (0b0011#4 ++ x ++ 0b0011#4 ++ y)) ∧
    CompletesAcc (.mulwu1 x y) s .a1 (BitVec.ofInt 64 ((s.getReg x).toInt * loNat (s.getReg y))) ∧
    EncodedAs (.mulwu1 x y) (.half (0b0101#4 ++ x ++ 0b1010#4 ++ y))

/-- R243 to R247, R250, with the encodings, the reserved sub-opcodes that R243 to R247 print, and the reserved
selectors of R64, R230 and R71. -/
def Obligations.accumulator_transfers_and_sum : Prop :=
  ∀ (s : State) (r : Reg) (a : Acc) (f : BitVec 2),
    CompletesReg (.mvfachi r a) s r (BitVec.ofInt 32 (s.accInt a / 4294967296)) 2 ∧
    EncodedAs (.mvfachi r a) (.half (0b0101#4 ++ r ++ 0b1111#4 ++ accField a ++ 0b00#2)) ∧
    CompletesReg (.mvfaclo r a) s r (BitVec.ofInt 32 (s.accInt a)) 2 ∧
    EncodedAs (.mvfaclo r a) (.half (0b0101#4 ++ r ++ 0b1111#4 ++ accField a ++ 0b01#2)) ∧
    CompletesReg (.mvfacmi r a) s r (BitVec.ofInt 32 (s.accInt a / 65536)) 2 ∧
    EncodedAs (.mvfacmi r a) (.half (0b0101#4 ++ r ++ 0b1111#4 ++ accField a ++ 0b10#2)) ∧
    CompletesAcc (.mvtachi r a) s a
      (BitVec.ofNat 64 ((s.getReg r).toNat * 4294967296 + (s.accBits a).toNat % 4294967296)) ∧
    EncodedAs (.mvtachi r a) (.half (0b0101#4 ++ r ++ 0b0111#4 ++ accField a ++ 0b00#2)) ∧
    CompletesAcc (.mvtaclo r a) s a
      (BitVec.ofNat 64 ((s.accBits a).toNat / 4294967296 * 4294967296 + (s.getReg r).toNat)) ∧
    EncodedAs (.mvtaclo r a) (.half (0b0101#4 ++ r ++ 0b0111#4 ++ accField a ++ 0b01#2)) ∧
    decode16 (0b0101#4 ++ r ++ 0b1111#4 ++ f ++ 0b11#2) = none ∧
    decode16 (0b0101#4 ++ r ++ 0b0111#4 ++ f ++ 0b10#2) = none ∧
      decode16 (0b0101#4 ++ r ++ 0b0111#4 ++ f ++ 0b11#2) = none ∧
    decode16 (0b0101#4 ++ r ++ 0b0111#4 ++ 0b10#2 ++ f) = none ∧
      decode16 (0b0101#4 ++ r ++ 0b0111#4 ++ 0b11#2 ++ f) = none ∧
    CompletesAcc .sadd s .a0 (BitVec.ofInt 64 (s.accInt .a0 + s.accInt .a1 / 65536)) ∧
    EncodedAs .sadd (.half (0b0101#4 ++ 0b0000#4 ++ 0b1110#4 ++ 0b0100#4))

/-- R248, R249, with the encodings of R70 for the written immediates 1 and 2. -/
def Obligations.rounding : Prop :=
  ∀ (s : State) (d a : Acc) (n : Nat), n = 1 ∨ n = 2 →
    (let t : Int := s.accInt a * 2 ^ n + 32768;
      CompletesAcc (.rac d a n) s d (BitVec.ofInt 64
        (if 140737488289792 < t then 140737488289792 else if t < -140737488355328 then -140737488355328
          else t / 65536 * 65536))) ∧
    (let t : Int := s.accInt a * 2 ^ n + 2147483648;
      CompletesAcc (.rach d a n) s d (BitVec.ofInt 64
        (if 140733193388032 < t then 140733193388032 else if t < -140737488355328 then -140737488355328
          else t / 4294967296 * 4294967296))) ∧
    EncodedAs (.rac d a n) (.half (0b0101#4 ++ accField d ++ 0b00#2 ++ 0b1001#4 ++ accField a ++ 0b0#1 ++
      BitVec.ofNat 1 (n - 1))) ∧
    EncodedAs (.rach d a n) (.half (0b0101#4 ++ accField d ++ 0b00#2 ++ 0b1000#4 ++ accField a ++ 0b0#1 ++
      BitVec.ofNat 1 (n - 1)))

/-- R251, R252, with the encodings and the reserved neighbours. -/
def Obligations.saturation : Prop :=
  ∀ (s : State) (d r : Reg) (h : Half),
    CompletesReg (.satb d r) s d (BitVec.ofInt 32 (max (-128) (min 127 (s.getReg r).toInt))) 4 ∧
    EncodedAs (.satb d r) (.word (0b1000#4 ++ d ++ 0b0110#4 ++ r ++ 0b0000001100000000#16)) ∧
    CompletesReg (.sath d r) s d (BitVec.ofInt 32 (max (-32768) (min 32767 (s.getReg r).toInt))) 4 ∧
    EncodedAs (.sath d r) (.word (0b1000#4 ++ d ++ 0b0110#4 ++ r ++ 0b0000001000000000#16)) ∧
    (h ≠ 0x0300#16 → h ≠ 0x0200#16 → decode32 (0b1000#4 ++ d ++ 0b0110#4 ++ r ++ h) = none)

/-- R261, R262, R263 over the parameter COPROC (R260, decision D18), for every coprocessor and both modes. -/
def Obligations.coprocessor_instructions : Prop :=
  ∀ (s : State) (r x k : BitVec 4) (m : BitVec 8),
    (∀ cp : Coproc, s.coprocAt k = some cp →
      (CoprocCommand.write x m (s.getReg r) ∉ cp.answersCDE →
        ∃ t, exec (.mvtcp r x k m) s = .next t ∧
          Leaves s t (s.fallThrough 4)
            (coproc := s.coproc.set k.toNat
              (some (Config.coprocNext k cp (CoprocCommand.write x m (s.getReg r)))) k.isLt)) ∧
      (CoprocCommand.write x m (s.getReg r) ∈ cp.answersCDE → Raises (.mvtcp r x k m) s .cde) ∧
      (CoprocCommand.read x m ∉ cp.answersCDE →
        ∃ t, exec (.mvfcp r x k m) s = .next t ∧
          Leaves s t (s.fallThrough 4)
            (regs := [(s.physReg r, Config.coprocValue k cp (CoprocCommand.read x m))])
            (coproc := s.coproc.set k.toNat (some (Config.coprocNext k cp (CoprocCommand.read x m))) k.isLt)) ∧
      (CoprocCommand.read x m ∈ cp.answersCDE → Raises (.mvfcp r x k m) s .cde) ∧
      (CoprocCommand.operate r x m ∉ cp.answersCDE →
        ∃ t, exec (.opecp r x k m) s = .next t ∧
          Leaves s t (s.fallThrough 4)
            (coproc := s.coproc.set k.toNat (some (Config.coprocNext k cp (CoprocCommand.operate r x m))) k.isLt)) ∧
      (CoprocCommand.operate r x m ∈ cp.answersCDE → Raises (.opecp r x k m) s .cde)) ∧
    (s.coprocAt k = none →
      exec (.mvtcp r x k m) s = .refused (.coprocessorAbsent k) ∧
      exec (.mvfcp r x k m) s = .refused (.coprocessorAbsent k) ∧
      exec (.opecp r x k m) s = .refused (.coprocessorAbsent k)) ∧
    EncodedAs (.mvtcp r x k m) (.word ((0b1101#4 ++ r ++ 0b0110#4 ++ x) ++ (k ++ 0b0000#4 ++ m : Half))) ∧
    EncodedAs (.mvfcp r x k m) (.word ((0b1101#4 ++ r ++ 0b0101#4 ++ x) ++ (k ++ 0b0000#4 ++ m : Half))) ∧
    EncodedAs (.opecp r x k m) (.word ((0b1101#4 ++ r ++ 0b0111#4 ++ x) ++ (k ++ 0b0000#4 ++ m : Half)))

/-- R13, R66, R78: where execution goes on. -/
def Obligations.fall_through : Prop :=
  ∀ s : State,
    (s.issue = .alone → s.fallThrough 2 = BitVec.ofNat 32 (s.pc.toNat + 2) ∧
      s.fallThrough 4 = BitVec.ofNat 32 (s.pc.toNat + 4)) ∧
    (s.issue ≠ .alone → ∀ len, s.fallThrough len = BitVec.ofNat 32 (s.wordStart + 4))

/-- R190 (c): every target is word-aligned; only RTE can return to the lower half of a word. -/
def Obligations.branch_targets_word_aligned : Prop :=
  ∀ (i : Instr) (s t : State), exec i s = .next t → i ≠ .rte →
    t.pc = s.fallThrough (BitVec.ofNat 32 i.size) ∨ t.pc.toNat % 4 = 0

/-- The frame on registers of every instruction: R12's banking, base updates and links included. -/
def Obligations.registers_frame : Prop :=
  ∀ (i : Instr) (s t : State), exec i s = .next t →
    ∀ p : Store, p ∉ writtenRegs i s → t.readStore p = s.readStore p

/-- R34: the complete list of what writes C. -/
def Obligations.condition_bit_writers : Prop :=
  ∀ (i : Instr) (s t : State), exec i s = .next t → t.psw.c ≠ s.psw.c →
    (∃ a b, i = .cmp a b) ∨ (∃ a b, i = .cmpeq a b) ∨ (∃ a b, i = .cmpi a b) ∨ (∃ a b, i = .cmpu a b) ∨
      (∃ a b, i = .cmpui a b) ∨ (∃ a, i = .cmpz a) ∨
    (∃ a, i = .pcmpbz a) ∨ (∃ a b, i = .addv a b) ∨ (∃ a b c, i = .addv3 a b c) ∨ (∃ a b, i = .addx a b) ∨
      (∃ a b, i = .subv a b) ∨ (∃ a b, i = .subx a b) ∨ (∃ a b, i = .btst a b) ∨
    (∃ r, i = .mvtc 0 r) ∨ (∃ m, i = .setpsw m ∧ m.getMsbD 7 = true) ∨ (∃ m, i = .clrpsw m ∧ m.getMsbD 7 = true) ∨
    i = .rte ∨ (∃ k, t.pc = s.eitVector k ∧ t.psw = pswAfterEntry s.psw)

/-- R29: which instruction writes which accumulator. -/
def Obligations.accumulators_frame : Prop :=
  ∀ (i : Instr) (s t : State) (a : Acc), exec i s = .next t → t.accBits a ≠ s.accBits a →
    (∃ x y, i = .machi x y a ∨ i = .maclo x y a ∨ i = .mulhi x y a ∨ i = .mullo x y a ∨ i = .mul x y) ∨
    (∃ r, i = .mvtachi r a ∨ i = .mvtaclo r a) ∨ (∃ b n, i = .rac a b n ∨ i = .rach a b n) ∨
    (a = .a0 ∧ (i = .sadd ∨
      ∃ x y, i = .macwhi x y ∨ i = .macwlo x y ∨ i = .mulwhi x y ∨ i = .mulwlo x y ∨ i = .msblo x y)) ∨
    (a = .a1 ∧ ∃ x y, i = .maclh1 x y ∨ i = .macwu1 x y ∨ i = .mulwu1 x y)

/-- The frame on memory of every instruction. `storeTarget` computes the address as the meaning does. -/
def Obligations.memory_frame : Prop :=
  ∀ (i : Instr) (s t : State), s.mem.wf = true → exec i s = .next t →
    ∀ a : Nat, (∀ ea n, storeTarget i s = some (ea, n) → ¬ (ea.toNat ≤ a ∧ a < ea.toNat + n)) →
      t.mem.readByte a = s.mem.readByte a

/-- R286: what user mode cannot do, for every step, pairs and interrupts included. -/
def Obligations.user_mode_isolation : Prop :=
  ∀ s t : State, s.psw.pm = true → s.offer.reset = false → step s = .next t →
    t.evb = s.evb ∧ t.evbWritten = s.evbWritten ∧
    (s.psw.sm = true → t.spi = s.spi) ∧ (s.psw.sm = false → t.spu = s.spu) ∧
    (({ t.psw with c := s.psw.c } = s.psw ∧ t.bpc = s.bpc) ∨
      (t.psw.pm = false ∧ t.psw.bpm = true ∧ ∃ k, t.pc = s.eitVector k))

/-- R42: mixed-width access to big-endian memory. -/
def Obligations.memory_read_after_write : Prop :=
  (∀ (s : State) (a v : Word), s.mem.wf = true → a.toNat % 4 = 0 →
    let m := (s.storeWord a v).mem
    (∀ k, k < 4 → m.readByte (a.toNat + k) = v.extractLsb' (24 - 8 * k) 8) ∧ m.readWord a = v ∧
      m.readHalf a = v.extractLsb' 16 16 ∧ m.readHalf (a + 2) = v.extractLsb' 0 16 ∧ m.wf = true ∧
      ∀ x, (x < a.toNat ∨ a.toNat + 4 ≤ x) → m.readByte x = s.mem.readByte x) ∧
  (∀ (s : State) (a : Word) (v : Half), s.mem.wf = true → a.toNat % 2 = 0 →
    let m := (s.storeHalf a v).mem
    m.readByte a.toNat = v.extractLsb' 8 8 ∧ m.readByte (a.toNat + 1) = v.extractLsb' 0 8 ∧ m.readHalf a = v ∧
      m.wf = true ∧ ∀ x, (x < a.toNat ∨ a.toNat + 2 ≤ x) → m.readByte x = s.mem.readByte x) ∧
  (∀ (s : State) (a : Word) (v : Byte), s.mem.wf = true →
    let m := (s.storeByte a v).mem
    m.readByte a.toNat = v ∧ m.wf = true ∧ ∀ x, x ≠ a.toNat → m.readByte x = s.mem.readByte x) ∧
  (∀ m n : Memory, m.wf = true → n.wf = true → (∀ a, m.readByte a = n.readByte a) → m = n)

/-- R11, R12: the general registers and the banked stack pointer. R29: the 64-bit view of the 56 stored bits. -/
def Obligations.register_views : Prop :=
  ∀ (s : State) (n m : Reg) (v : Word) (a b : Acc) (x : BitVec 64),
    s.getReg 15 = (if s.psw.sm then s.spu else s.spi) ∧
    (s.setReg 15 v).spi = (if s.psw.sm then s.spi else v) ∧ (s.setReg 15 v).spu = (if s.psw.sm then v else s.spu) ∧
    (n ≠ 15 → (s.setReg n v).spi = s.spi ∧ (s.setReg n v).spu = s.spu) ∧
    (s.setReg n v).getReg m = (if m = n then v else s.getReg m) ∧
    ((s.writeAcc a x).readAcc a).toInt = Int.bmod x.toNat (2 ^ 56) ∧
    (b ≠ a → (s.writeAcc a x).readAcc b = s.readAcc b)

/-- R75 to R78. A cell or C that both write is free: nothing is said of it. That the other writes stand beside such a
collision is a choice: decision D12, notes/assumptions/12.md. -/
def Obligations.pair_merges_writes : Prop :=
  ∀ (a b : Instr) (s ta tb : State), pairAllowed a b = true →
    exec a { s with issue := .paired } = .next ta → exec b { s with issue := .paired } = .next tb →
      ta.issue = .paired →
    ∃ t, runPair a b s = .next t ∧ t.pc = ta.pc ∧ t.mem = ta.mem ∧ t.stored = ta.stored ∧ t.lock = ta.lock ∧
      t.evb = ta.evb ∧ t.evbWritten = ta.evbWritten ∧ t.bpc = ta.bpc ∧ t.coproc = ta.coproc ∧ t.irq = s.irq ∧
      t.issue = .alone ∧ { t.psw with c := ta.psw.c } = ta.psw ∧
      (∀ p, p ∉ writtenRegs b s → t.readStore p = ta.readStore p) ∧
      (∀ p, p ∈ writtenRegs b s → p ∉ writtenRegs a s → t.readStore p = tb.readStore p) ∧
      (writesC b = false → t.psw.c = ta.psw.c) ∧
      (writesC b = true → writesC a = false → t.psw.c = tb.psw.c) ∧
      (∀ x, t.accBits x = if writesAcc b x then tb.accBits x else ta.accBits x)

/-- R281, table 3.4.1: the rows with PIE, AE and TRAP (those with RIE are in reserved_encoding_raises_rie). -/
def Obligations.pair_exceptions : Prop :=
  ∀ (a b : Instr) (s ta tb : State), s.issue = .alone → pairAllowed a b = true →
    (exec a { s with issue := .paired } = .next ta → ta.issue = .aborted →
      ∃ t k, runPair a b s = .next t ∧ (k = .pie ∨ k = .ae) ∧
        Entered { s with issue := .paired } ta k s.pc (issue := .aborted) ∧ Entered s t k s.pc ∧ t.pc = ta.pc) ∧
    (∀ n, a = .trap n → exec b { s with issue := .paired } = .next tb →
      ∃ t, runPair a b s = .next t ∧ t.pc = s.eitVector (.trap n) ∧ t.bpc = BitVec.ofNat 32 (s.wordStart + 4) ∧
        { t.psw with c := false } = pswAfterEntry s.psw ∧ (writesC b = false → t.psw.c = false) ∧
        (∀ p, t.readStore p = tb.readStore p) ∧ t.acc0 = tb.acc0 ∧ t.acc1 = tb.acc1)
end

