-- ==== Sys2Proof/Laws/Encoding.lean ====
section
/-!
SUPPORT. The fields of a packed halfword or word, and a halfword or word put together again from its fields and from
its bytes.
-/

namespace Sys2Proof

/-! ## Halves of a concatenation -/

theorem extract_left {v w : Nat} (x : BitVec v) (y : BitVec w) : (x ++ y).extractLsb' w v = x := by
  rw [BitVec.extractLsb'_append_eq_of_le (le_refl w), Nat.sub_self]
  exact BitVec.extractLsb'_eq_self

theorem extract_right {v w : Nat} (x : BitVec v) (y : BitVec w) : (x ++ y).extractLsb' 0 w = y := by
  rw [BitVec.extractLsb'_append_eq_of_add_le (by omega)]
  exact BitVec.extractLsb'_eq_self

/-- A field of the left part. -/
theorem extract_of_left {v w : Nat} (x : BitVec v) (y : BitVec w) (k n : Nat) :
    (x ++ y).extractLsb' (w + k) n = x.extractLsb' k n := by
  rw [BitVec.extractLsb'_append_eq_of_le (by omega), Nat.add_sub_cancel_left]

/-- A field of the right part. -/
theorem extract_of_right {v w : Nat} (x : BitVec v) (y : BitVec w) (k n : Nat) (h : k + n ≤ w) :
    (x ++ y).extractLsb' k n = y.extractLsb' k n :=
  BitVec.extractLsb'_append_eq_of_add_le h

/-- A field of a field. -/
theorem extract_extract {n : Nat} (x : BitVec n) (a l k m : Nat) (h : k + m ≤ l) :
    (x.extractLsb' a l).extractLsb' k m = x.extractLsb' (a + k) m := by
  ext i hi
  have : k + i < l := by omega
  simp [this, Nat.add_assoc]

theorem append_left_inj {v w : Nat} {x x' : BitVec v} {y y' : BitVec w} (h : x ++ y = x' ++ y') : x = x' ∧ y = y' := by
  have hl := congrArg (fun z => z.extractLsb' w v) h
  have hr := congrArg (fun z => z.extractLsb' 0 w) h
  simp only [extract_left, extract_right] at hl hr
  exact ⟨hl, hr⟩

/-! ## The fields of a packed halfword -/

@[simp] theorem opField_pack16 (a b c d : BitVec 4) : opField (pack16 a b c d) = a :=
  ((extract_of_left (a ++ b ++ c) d 8 4).trans (extract_of_left (a ++ b) c 4 4)).trans (extract_left a b)

@[simp] theorem r1Field_pack16 (a b c d : BitVec 4) : r1Field (pack16 a b c d) = b :=
  ((extract_of_left (a ++ b ++ c) d 4 4).trans (extract_of_left (a ++ b) c 0 4)).trans (extract_right a b)

@[simp] theorem op2Field_pack16 (a b c d : BitVec 4) : op2Field (pack16 a b c d) = c :=
  (extract_of_left (a ++ b ++ c) d 0 4).trans (extract_right (a ++ b) c)

@[simp] theorem r2Field_pack16 (a b c d : BitVec 4) : r2Field (pack16 a b c d) = d :=
  extract_right (a ++ b ++ c) d

@[simp] theorem opField_pack16Imm8 (a b : BitVec 4) (k : BitVec 8) : opField (pack16Imm8 a b k) = a :=
  (extract_of_left (a ++ b) k 4 4).trans (extract_left a b)

@[simp] theorem r1Field_pack16Imm8 (a b : BitVec 4) (k : BitVec 8) : r1Field (pack16Imm8 a b k) = b :=
  (extract_of_left (a ++ b) k 0 4).trans (extract_right a b)

@[simp] theorem imm8Field_pack16Imm8 (a b : BitVec 4) (k : BitVec 8) : imm8Field (pack16Imm8 a b k) = k :=
  extract_right (a ++ b) k

@[simp] theorem opField_pack16Imm5 (a b : BitVec 4) (j : BitVec 3) (k : BitVec 5) :
    opField (pack16Imm5 a b j k) = a :=
  ((extract_of_left (a ++ b ++ j) k 7 4).trans (extract_of_left (a ++ b) j 4 4)).trans (extract_left a b)

@[simp] theorem r1Field_pack16Imm5 (a b : BitVec 4) (j : BitVec 3) (k : BitVec 5) :
    r1Field (pack16Imm5 a b j k) = b :=
  ((extract_of_left (a ++ b ++ j) k 3 4).trans (extract_of_left (a ++ b) j 0 4)).trans (extract_right a b)

@[simp] theorem imm5Field_pack16Imm5 (a b : BitVec 4) (j : BitVec 3) (k : BitVec 5) :
    imm5Field (pack16Imm5 a b j k) = k := extract_right (a ++ b ++ j) k

/-- The sub-opcode of an immediate shift: its three bits and the first bit of the count. -/
theorem op2Field_pack16Imm5 (a b : BitVec 4) (j : BitVec 3) (k : BitVec 5) :
    op2Field (pack16Imm5 a b j k) = (j ++ k : BitVec 8).extractLsb' 4 4 := by
  have h : (a ++ b ++ j ++ k : BitVec (4 + 4 + 3 + 5)) = (a ++ b ++ (j ++ k) : BitVec (4 + 4 + (3 + 5))) := by
    apply BitVec.eq_of_toNat_eq
    simp only [BitVec.toNat_append]
    rw [Nat.shiftLeft_or_distrib, ← Nat.shiftLeft_add, Nat.or_assoc]
  exact (congrArg (fun z : BitVec (4 + 4 + 3 + 5) => z.extractLsb' 4 4) h).trans
    (extract_of_right (a ++ b) (j ++ k) 4 4 (by decide))

@[simp] theorem bitposField_pack16 (a c d : BitVec 4) (t : BitVec 3) :
    bitposField (pack16 a (bitposR1 t) c d) = t := by
  have h1 : bitposField (pack16 a (bitposR1 t) c d) = (bitposR1 t).extractLsb' 0 3 :=
    ((extract_of_left (a ++ bitposR1 t ++ c) d 4 3).trans (extract_of_left (a ++ bitposR1 t) c 0 3)).trans
      (extract_of_right a (bitposR1 t) 0 3 (by decide))
  rw [h1]
  exact extract_right (0 : BitVec 1) t

/-! ## The fields of a packed word -/

@[simp] theorem upperHalf_pack32 (a b c d : BitVec 4) (k : Half) : upperHalf (pack32 a b c d k) = pack16 a b c d :=
  extract_left (pack16 a b c d) k

@[simp] theorem lowerHalf_pack32 (a b c d : BitVec 4) (k : Half) : lowerHalf (pack32 a b c d k) = k :=
  extract_right (pack16 a b c d) k

@[simp] theorem opField_pack32Imm24 (a b : BitVec 4) (k : BitVec 24) : opField (upperHalf (pack32Imm24 a b k)) = a := by
  have h : opField (upperHalf (pack32Imm24 a b k)) = (pack32Imm24 a b k).extractLsb' 28 4 :=
    extract_extract _ 16 16 12 4 (by decide)
  rw [h]
  exact (extract_of_left (a ++ b) k 4 4).trans (extract_left a b)

@[simp] theorem r1Field_pack32Imm24 (a b : BitVec 4) (k : BitVec 24) : r1Field (upperHalf (pack32Imm24 a b k)) = b := by
  have h : r1Field (upperHalf (pack32Imm24 a b k)) = (pack32Imm24 a b k).extractLsb' 24 4 :=
    extract_extract _ 16 16 8 4 (by decide)
  rw [h]
  exact (extract_of_left (a ++ b) k 0 4).trans (extract_right a b)

@[simp] theorem imm24Field_pack32Imm24 (a b : BitVec 4) (k : BitVec 24) : imm24Field (pack32Imm24 a b k) = k :=
  extract_right (a ++ b) k

@[simp] theorem upperHalf_packCoproc (r1 op2 r2 cpid : BitVec 4) (inst : BitVec 8) :
    upperHalf (packCoproc r1 op2 r2 cpid inst) = pack16 13 r1 op2 r2 :=
  extract_left (pack16 13 r1 op2 r2) _

@[simp] theorem cpidField_packCoproc (r1 op2 r2 cpid : BitVec 4) (inst : BitVec 8) :
    cpidField (packCoproc r1 op2 r2 cpid inst) = cpid :=
  ((extract_of_right (pack16 13 r1 op2 r2) (cpid ++ (0 : BitVec 4) ++ inst) 12 4 (by decide)).trans
    (extract_of_left (cpid ++ (0 : BitVec 4)) inst 4 4)).trans (extract_left cpid _)

@[simp] theorem coprocConstField_packCoproc (r1 op2 r2 cpid : BitVec 4) (inst : BitVec 8) :
    coprocConstField (packCoproc r1 op2 r2 cpid inst) = 0 :=
  ((extract_of_right (pack16 13 r1 op2 r2) (cpid ++ (0 : BitVec 4) ++ inst) 8 4 (by decide)).trans
    (extract_of_left (cpid ++ (0 : BitVec 4)) inst 0 4)).trans (extract_right cpid _)

@[simp] theorem instField_packCoproc (r1 op2 r2 cpid : BitVec 4) (inst : BitVec 8) :
    instField (packCoproc r1 op2 r2 cpid inst) = inst :=
  (extract_of_right (pack16 13 r1 op2 r2) (cpid ++ (0 : BitVec 4) ++ inst) 0 8 (by decide)).trans
    (extract_right (cpid ++ (0 : BitVec 4)) inst)

/-! ## Put together again -/

theorem pack16_fields (h : Half) : pack16 (opField h) (r1Field h) (op2Field h) (r2Field h) = h := by
  have e : (h.extractLsb' 12 4 ++ h.extractLsb' 8 4 ++ h.extractLsb' 4 4 ++ h.extractLsb' 0 4 : BitVec (4 + 4 + 4 + 4)) =
      h := by
    rw [BitVec.extractLsb'_append_extractLsb'_eq_extractLsb' (by rfl),
      BitVec.extractLsb'_append_extractLsb'_eq_extractLsb' (by rfl),
      BitVec.extractLsb'_append_extractLsb'_eq_extractLsb' (by rfl)]
    exact BitVec.extractLsb'_eq_self
  exact e

theorem pack16Imm8_fields (h : Half) : pack16Imm8 (opField h) (r1Field h) (imm8Field h) = h := by
  have e : (h.extractLsb' 12 4 ++ h.extractLsb' 8 4 ++ h.extractLsb' 0 8 : BitVec (4 + 4 + 8)) = h := by
    rw [BitVec.extractLsb'_append_extractLsb'_eq_extractLsb' (by rfl),
      BitVec.extractLsb'_append_extractLsb'_eq_extractLsb' (by rfl)]
    exact BitVec.extractLsb'_eq_self
  exact e

theorem pack16Imm5_fields (h : Half) :
    pack16Imm5 (opField h) (r1Field h) (h.extractLsb' 5 3) (imm5Field h) = h := by
  have e : (h.extractLsb' 12 4 ++ h.extractLsb' 8 4 ++ h.extractLsb' 5 3 ++ h.extractLsb' 0 5 : BitVec (4 + 4 + 3 + 5)) =
      h := by
    rw [BitVec.extractLsb'_append_extractLsb'_eq_extractLsb' (by rfl),
      BitVec.extractLsb'_append_extractLsb'_eq_extractLsb' (by rfl),
      BitVec.extractLsb'_append_extractLsb'_eq_extractLsb' (by rfl)]
    exact BitVec.extractLsb'_eq_self
  exact e

theorem halves (w : Word) : (upperHalf w ++ lowerHalf w : BitVec (16 + 16)) = w := by
  simp only [upperHalf, lowerHalf]
  rw [BitVec.extractLsb'_append_extractLsb'_eq_extractLsb' (by rfl)]
  exact BitVec.extractLsb'_eq_self

theorem pack32_fields (w : Word) :
    pack32 (opField (upperHalf w)) (r1Field (upperHalf w)) (op2Field (upperHalf w)) (r2Field (upperHalf w))
      (lowerHalf w) = w := by
  unfold pack32
  rw [pack16_fields]
  exact halves w

/-! ## Bytes -/

theorem half_of_bytes (h : Half) : (h.extractLsb' 8 8 ++ h.extractLsb' 0 8 : BitVec (8 + 8)) = h := by
  rw [BitVec.extractLsb'_append_extractLsb'_eq_extractLsb' (by rfl)]
  exact BitVec.extractLsb'_eq_self

theorem word_of_bytes (w : Word) :
    ((w.extractLsb' 24 8 ++ w.extractLsb' 16 8 : BitVec (8 + 8)) ++
      (w.extractLsb' 8 8 ++ w.extractLsb' 0 8 : BitVec (8 + 8)) : BitVec (16 + 16)) = w := by
  rw [BitVec.extractLsb'_append_extractLsb'_eq_extractLsb' (by rfl),
    BitVec.extractLsb'_append_extractLsb'_eq_extractLsb' (by rfl)]
  exact (BitVec.extractLsb'_append_extractLsb'_eq_extractLsb' (by rfl)).trans BitVec.extractLsb'_eq_self

/-- The MSB of a halfword is the first bit of its operation field. -/
theorem msb_eq_opField (h : Half) : msb h = (opField h).getLsbD 3 := by
  simp [msb, opField]

theorem msb_of_bytes (h : Half) : msb (h.extractLsb' 8 8 ++ h.extractLsb' 0 8 : BitVec (8 + 8)) = msb h :=
  congrArg msb (half_of_bytes h)

/-! ## What the decoder reads from the bytes of a code -/

theorem decodeBytes_half {h : Half} (hm : msb h = false) (rest : List Byte) :
    decodeBytes ((Code.half h).bytes ++ rest) =
      match decode16 h with
      | some i => .ok (i, rest)
      | none => .error (.reservedHalf h) := by
  have e : (h.extractLsb' 8 8 ++ h.extractLsb' 0 8 : Half) = h := half_of_bytes h
  simp only [Code.bytes, List.cons_append, List.nil_append, decodeBytes, e, hm]
  rfl

theorem decodeBytes_word {w : Word} (hm : msb (upperHalf w) = true) (rest : List Byte) :
    decodeBytes ((Code.word w).bytes ++ rest) =
      match decode32 w with
      | some i => .ok (i, rest)
      | none => .error (.reservedWord w) := by
  have e : ((w.extractLsb' 24 8 ++ w.extractLsb' 16 8 : Half) ++ (w.extractLsb' 8 8 ++ w.extractLsb' 0 8 : Half) : Word)
      = w := word_of_bytes w
  have u : msb (w.extractLsb' 24 8 ++ w.extractLsb' 16 8 : Half) = true := by
    rw [← hm]
    exact congrArg msb (BitVec.extractLsb'_append_extractLsb'_eq_extractLsb' (by rfl))
  simp only [Code.bytes, List.cons_append, List.nil_append, decodeBytes]
  exact (if_pos u).trans (congrArg (fun x => match decode32 x with
    | some i => Except.ok (i, rest)
    | none => Except.error (DecodeReject.reservedWord x)) e)

end Sys2Proof
end

