-- ==== Sys2Proof/Laws/State.lean ====
section
/-!
SUPPORT. One lemma per field and update of State: what the field holds after the update.
-/

namespace Sys2Proof.Machine

/-! ## `State.goto` -/

@[simp] theorem State.goto_pc (s : State) (a : Word) : (s.goto a).pc = a := rfl
@[simp] theorem State.goto_r (s : State) (a : Word) : (s.goto a).r = s.r := rfl
@[simp] theorem State.goto_spi (s : State) (a : Word) : (s.goto a).spi = s.spi := rfl
@[simp] theorem State.goto_spu (s : State) (a : Word) : (s.goto a).spu = s.spu := rfl
@[simp] theorem State.goto_psw (s : State) (a : Word) : (s.goto a).psw = s.psw := rfl
@[simp] theorem State.goto_evb (s : State) (a : Word) : (s.goto a).evb = s.evb := rfl
@[simp] theorem State.goto_evbWritten (s : State) (a : Word) : (s.goto a).evbWritten = s.evbWritten := rfl
@[simp] theorem State.goto_bpc (s : State) (a : Word) : (s.goto a).bpc = s.bpc := rfl
@[simp] theorem State.goto_acc0 (s : State) (a : Word) : (s.goto a).acc0 = s.acc0 := rfl
@[simp] theorem State.goto_acc1 (s : State) (a : Word) : (s.goto a).acc1 = s.acc1 := rfl
@[simp] theorem State.goto_lock (s : State) (a : Word) : (s.goto a).lock = s.lock := rfl
@[simp] theorem State.goto_mem (s : State) (a : Word) : (s.goto a).mem = s.mem := rfl
@[simp] theorem State.goto_stored (s : State) (a : Word) : (s.goto a).stored = s.stored := rfl
@[simp] theorem State.goto_coproc (s : State) (a : Word) : (s.goto a).coproc = s.coproc := rfl
@[simp] theorem State.goto_irq (s : State) (a : Word) : (s.goto a).irq = s.irq := rfl
@[simp] theorem State.goto_draws (s : State) (a : Word) : (s.goto a).draws = s.draws := rfl
@[simp] theorem State.goto_issue (s : State) (a : Word) : (s.goto a).issue = s.issue := rfl

/-! ## `State.advance` -/

@[simp] theorem State.advance_pc (s : State) (len : Word) : (s.advance len).pc = s.fallThrough len := rfl
@[simp] theorem State.advance_r (s : State) (len : Word) : (s.advance len).r = s.r := rfl
@[simp] theorem State.advance_spi (s : State) (len : Word) : (s.advance len).spi = s.spi := rfl
@[simp] theorem State.advance_spu (s : State) (len : Word) : (s.advance len).spu = s.spu := rfl
@[simp] theorem State.advance_psw (s : State) (len : Word) : (s.advance len).psw = s.psw := rfl
@[simp] theorem State.advance_evb (s : State) (len : Word) : (s.advance len).evb = s.evb := rfl
@[simp] theorem State.advance_evbWritten (s : State) (len : Word) : (s.advance len).evbWritten = s.evbWritten := rfl
@[simp] theorem State.advance_bpc (s : State) (len : Word) : (s.advance len).bpc = s.bpc := rfl
@[simp] theorem State.advance_acc0 (s : State) (len : Word) : (s.advance len).acc0 = s.acc0 := rfl
@[simp] theorem State.advance_acc1 (s : State) (len : Word) : (s.advance len).acc1 = s.acc1 := rfl
@[simp] theorem State.advance_lock (s : State) (len : Word) : (s.advance len).lock = s.lock := rfl
@[simp] theorem State.advance_mem (s : State) (len : Word) : (s.advance len).mem = s.mem := rfl
@[simp] theorem State.advance_stored (s : State) (len : Word) : (s.advance len).stored = s.stored := rfl
@[simp] theorem State.advance_coproc (s : State) (len : Word) : (s.advance len).coproc = s.coproc := rfl
@[simp] theorem State.advance_irq (s : State) (len : Word) : (s.advance len).irq = s.irq := rfl
@[simp] theorem State.advance_draws (s : State) (len : Word) : (s.advance len).draws = s.draws := rfl
@[simp] theorem State.advance_issue (s : State) (len : Word) : (s.advance len).issue = s.issue := rfl

/-! ## `State.writeStore` -/

@[simp] theorem State.writeStore_pc (s : State) (p : Store) (v : Word) : (s.writeStore p v).pc = s.pc := by cases p <;> rfl
@[simp] theorem State.writeStore_psw (s : State) (p : Store) (v : Word) : (s.writeStore p v).psw = s.psw := by cases p <;> rfl
@[simp] theorem State.writeStore_evb (s : State) (p : Store) (v : Word) : (s.writeStore p v).evb = s.evb := by cases p <;> rfl
@[simp] theorem State.writeStore_evbWritten (s : State) (p : Store) (v : Word) : (s.writeStore p v).evbWritten = s.evbWritten := by cases p <;> rfl
@[simp] theorem State.writeStore_bpc (s : State) (p : Store) (v : Word) : (s.writeStore p v).bpc = s.bpc := by cases p <;> rfl
@[simp] theorem State.writeStore_acc0 (s : State) (p : Store) (v : Word) : (s.writeStore p v).acc0 = s.acc0 := by cases p <;> rfl
@[simp] theorem State.writeStore_acc1 (s : State) (p : Store) (v : Word) : (s.writeStore p v).acc1 = s.acc1 := by cases p <;> rfl
@[simp] theorem State.writeStore_lock (s : State) (p : Store) (v : Word) : (s.writeStore p v).lock = s.lock := by cases p <;> rfl
@[simp] theorem State.writeStore_mem (s : State) (p : Store) (v : Word) : (s.writeStore p v).mem = s.mem := by cases p <;> rfl
@[simp] theorem State.writeStore_stored (s : State) (p : Store) (v : Word) : (s.writeStore p v).stored = s.stored := by cases p <;> rfl
@[simp] theorem State.writeStore_coproc (s : State) (p : Store) (v : Word) : (s.writeStore p v).coproc = s.coproc := by cases p <;> rfl
@[simp] theorem State.writeStore_irq (s : State) (p : Store) (v : Word) : (s.writeStore p v).irq = s.irq := by cases p <;> rfl
@[simp] theorem State.writeStore_draws (s : State) (p : Store) (v : Word) : (s.writeStore p v).draws = s.draws := by cases p <;> rfl
@[simp] theorem State.writeStore_issue (s : State) (p : Store) (v : Word) : (s.writeStore p v).issue = s.issue := by cases p <;> rfl

/-! ## `State.setReg` -/

@[simp] theorem State.setReg_pc (s : State) (n : Reg) (v : Word) : (s.setReg n v).pc = s.pc := by simp [State.setReg]
@[simp] theorem State.setReg_psw (s : State) (n : Reg) (v : Word) : (s.setReg n v).psw = s.psw := by simp [State.setReg]
@[simp] theorem State.setReg_evb (s : State) (n : Reg) (v : Word) : (s.setReg n v).evb = s.evb := by simp [State.setReg]
@[simp] theorem State.setReg_evbWritten (s : State) (n : Reg) (v : Word) : (s.setReg n v).evbWritten = s.evbWritten := by simp [State.setReg]
@[simp] theorem State.setReg_bpc (s : State) (n : Reg) (v : Word) : (s.setReg n v).bpc = s.bpc := by simp [State.setReg]
@[simp] theorem State.setReg_acc0 (s : State) (n : Reg) (v : Word) : (s.setReg n v).acc0 = s.acc0 := by simp [State.setReg]
@[simp] theorem State.setReg_acc1 (s : State) (n : Reg) (v : Word) : (s.setReg n v).acc1 = s.acc1 := by simp [State.setReg]
@[simp] theorem State.setReg_lock (s : State) (n : Reg) (v : Word) : (s.setReg n v).lock = s.lock := by simp [State.setReg]
@[simp] theorem State.setReg_mem (s : State) (n : Reg) (v : Word) : (s.setReg n v).mem = s.mem := by simp [State.setReg]
@[simp] theorem State.setReg_stored (s : State) (n : Reg) (v : Word) : (s.setReg n v).stored = s.stored := by simp [State.setReg]
@[simp] theorem State.setReg_coproc (s : State) (n : Reg) (v : Word) : (s.setReg n v).coproc = s.coproc := by simp [State.setReg]
@[simp] theorem State.setReg_irq (s : State) (n : Reg) (v : Word) : (s.setReg n v).irq = s.irq := by simp [State.setReg]
@[simp] theorem State.setReg_draws (s : State) (n : Reg) (v : Word) : (s.setReg n v).draws = s.draws := by simp [State.setReg]
@[simp] theorem State.setReg_issue (s : State) (n : Reg) (v : Word) : (s.setReg n v).issue = s.issue := by simp [State.setReg]

/-! ## `State.setC` -/

@[simp] theorem State.setC_pc (s : State) (b : Bool) : (s.setC b).pc = s.pc := rfl
@[simp] theorem State.setC_r (s : State) (b : Bool) : (s.setC b).r = s.r := rfl
@[simp] theorem State.setC_spi (s : State) (b : Bool) : (s.setC b).spi = s.spi := rfl
@[simp] theorem State.setC_spu (s : State) (b : Bool) : (s.setC b).spu = s.spu := rfl
@[simp] theorem State.setC_psw (s : State) (b : Bool) : (s.setC b).psw = { s.psw with c := b } := rfl
@[simp] theorem State.setC_evb (s : State) (b : Bool) : (s.setC b).evb = s.evb := rfl
@[simp] theorem State.setC_evbWritten (s : State) (b : Bool) : (s.setC b).evbWritten = s.evbWritten := rfl
@[simp] theorem State.setC_bpc (s : State) (b : Bool) : (s.setC b).bpc = s.bpc := rfl
@[simp] theorem State.setC_acc0 (s : State) (b : Bool) : (s.setC b).acc0 = s.acc0 := rfl
@[simp] theorem State.setC_acc1 (s : State) (b : Bool) : (s.setC b).acc1 = s.acc1 := rfl
@[simp] theorem State.setC_lock (s : State) (b : Bool) : (s.setC b).lock = s.lock := rfl
@[simp] theorem State.setC_mem (s : State) (b : Bool) : (s.setC b).mem = s.mem := rfl
@[simp] theorem State.setC_stored (s : State) (b : Bool) : (s.setC b).stored = s.stored := rfl
@[simp] theorem State.setC_coproc (s : State) (b : Bool) : (s.setC b).coproc = s.coproc := rfl
@[simp] theorem State.setC_irq (s : State) (b : Bool) : (s.setC b).irq = s.irq := rfl
@[simp] theorem State.setC_draws (s : State) (b : Bool) : (s.setC b).draws = s.draws := rfl
@[simp] theorem State.setC_issue (s : State) (b : Bool) : (s.setC b).issue = s.issue := rfl

/-! ## `State.writeAcc` -/

@[simp] theorem State.writeAcc_pc (s : State) (a : Acc) (v : BitVec 64) : (s.writeAcc a v).pc = s.pc := by cases a <;> rfl
@[simp] theorem State.writeAcc_r (s : State) (a : Acc) (v : BitVec 64) : (s.writeAcc a v).r = s.r := by cases a <;> rfl
@[simp] theorem State.writeAcc_spi (s : State) (a : Acc) (v : BitVec 64) : (s.writeAcc a v).spi = s.spi := by cases a <;> rfl
@[simp] theorem State.writeAcc_spu (s : State) (a : Acc) (v : BitVec 64) : (s.writeAcc a v).spu = s.spu := by cases a <;> rfl
@[simp] theorem State.writeAcc_psw (s : State) (a : Acc) (v : BitVec 64) : (s.writeAcc a v).psw = s.psw := by cases a <;> rfl
@[simp] theorem State.writeAcc_evb (s : State) (a : Acc) (v : BitVec 64) : (s.writeAcc a v).evb = s.evb := by cases a <;> rfl
@[simp] theorem State.writeAcc_evbWritten (s : State) (a : Acc) (v : BitVec 64) : (s.writeAcc a v).evbWritten = s.evbWritten := by cases a <;> rfl
@[simp] theorem State.writeAcc_bpc (s : State) (a : Acc) (v : BitVec 64) : (s.writeAcc a v).bpc = s.bpc := by cases a <;> rfl
@[simp] theorem State.writeAcc_acc0 (s : State) (a : Acc) (v : BitVec 64) : (s.writeAcc a v).acc0 = (match a with | .a0 => v.setWidth 56 | .a1 => s.acc0) := by cases a <;> rfl
@[simp] theorem State.writeAcc_acc1 (s : State) (a : Acc) (v : BitVec 64) : (s.writeAcc a v).acc1 = (match a with | .a0 => s.acc1 | .a1 => v.setWidth 56) := by cases a <;> rfl
@[simp] theorem State.writeAcc_lock (s : State) (a : Acc) (v : BitVec 64) : (s.writeAcc a v).lock = s.lock := by cases a <;> rfl
@[simp] theorem State.writeAcc_mem (s : State) (a : Acc) (v : BitVec 64) : (s.writeAcc a v).mem = s.mem := by cases a <;> rfl
@[simp] theorem State.writeAcc_stored (s : State) (a : Acc) (v : BitVec 64) : (s.writeAcc a v).stored = s.stored := by cases a <;> rfl
@[simp] theorem State.writeAcc_coproc (s : State) (a : Acc) (v : BitVec 64) : (s.writeAcc a v).coproc = s.coproc := by cases a <;> rfl
@[simp] theorem State.writeAcc_irq (s : State) (a : Acc) (v : BitVec 64) : (s.writeAcc a v).irq = s.irq := by cases a <;> rfl
@[simp] theorem State.writeAcc_draws (s : State) (a : Acc) (v : BitVec 64) : (s.writeAcc a v).draws = s.draws := by cases a <;> rfl
@[simp] theorem State.writeAcc_issue (s : State) (a : Acc) (v : BitVec 64) : (s.writeAcc a v).issue = s.issue := by cases a <;> rfl

/-! ## `State.storeByte` -/

@[simp] theorem State.storeByte_pc (s : State) (a : Word) (b : Byte) : (s.storeByte a b).pc = s.pc := rfl
@[simp] theorem State.storeByte_r (s : State) (a : Word) (b : Byte) : (s.storeByte a b).r = s.r := rfl
@[simp] theorem State.storeByte_spi (s : State) (a : Word) (b : Byte) : (s.storeByte a b).spi = s.spi := rfl
@[simp] theorem State.storeByte_spu (s : State) (a : Word) (b : Byte) : (s.storeByte a b).spu = s.spu := rfl
@[simp] theorem State.storeByte_psw (s : State) (a : Word) (b : Byte) : (s.storeByte a b).psw = s.psw := rfl
@[simp] theorem State.storeByte_evb (s : State) (a : Word) (b : Byte) : (s.storeByte a b).evb = s.evb := rfl
@[simp] theorem State.storeByte_evbWritten (s : State) (a : Word) (b : Byte) : (s.storeByte a b).evbWritten = s.evbWritten := rfl
@[simp] theorem State.storeByte_bpc (s : State) (a : Word) (b : Byte) : (s.storeByte a b).bpc = s.bpc := rfl
@[simp] theorem State.storeByte_acc0 (s : State) (a : Word) (b : Byte) : (s.storeByte a b).acc0 = s.acc0 := rfl
@[simp] theorem State.storeByte_acc1 (s : State) (a : Word) (b : Byte) : (s.storeByte a b).acc1 = s.acc1 := rfl
@[simp] theorem State.storeByte_lock (s : State) (a : Word) (b : Byte) : (s.storeByte a b).lock = s.lock := rfl
@[simp] theorem State.storeByte_mem (s : State) (a : Word) (b : Byte) : (s.storeByte a b).mem = s.mem.writeByte a.toNat b := rfl
@[simp] theorem State.storeByte_stored (s : State) (a : Word) (b : Byte) : (s.storeByte a b).stored = insertAddr a.toNat s.stored := rfl
@[simp] theorem State.storeByte_coproc (s : State) (a : Word) (b : Byte) : (s.storeByte a b).coproc = s.coproc := rfl
@[simp] theorem State.storeByte_irq (s : State) (a : Word) (b : Byte) : (s.storeByte a b).irq = s.irq := rfl
@[simp] theorem State.storeByte_draws (s : State) (a : Word) (b : Byte) : (s.storeByte a b).draws = s.draws := rfl
@[simp] theorem State.storeByte_issue (s : State) (a : Word) (b : Byte) : (s.storeByte a b).issue = s.issue := rfl

/-! ## `State.storeHalf` -/

@[simp] theorem State.storeHalf_pc (s : State) (a : Word) (v : Half) : (s.storeHalf a v).pc = s.pc := rfl
@[simp] theorem State.storeHalf_r (s : State) (a : Word) (v : Half) : (s.storeHalf a v).r = s.r := rfl
@[simp] theorem State.storeHalf_spi (s : State) (a : Word) (v : Half) : (s.storeHalf a v).spi = s.spi := rfl
@[simp] theorem State.storeHalf_spu (s : State) (a : Word) (v : Half) : (s.storeHalf a v).spu = s.spu := rfl
@[simp] theorem State.storeHalf_psw (s : State) (a : Word) (v : Half) : (s.storeHalf a v).psw = s.psw := rfl
@[simp] theorem State.storeHalf_evb (s : State) (a : Word) (v : Half) : (s.storeHalf a v).evb = s.evb := rfl
@[simp] theorem State.storeHalf_evbWritten (s : State) (a : Word) (v : Half) : (s.storeHalf a v).evbWritten = s.evbWritten := rfl
@[simp] theorem State.storeHalf_bpc (s : State) (a : Word) (v : Half) : (s.storeHalf a v).bpc = s.bpc := rfl
@[simp] theorem State.storeHalf_acc0 (s : State) (a : Word) (v : Half) : (s.storeHalf a v).acc0 = s.acc0 := rfl
@[simp] theorem State.storeHalf_acc1 (s : State) (a : Word) (v : Half) : (s.storeHalf a v).acc1 = s.acc1 := rfl
@[simp] theorem State.storeHalf_lock (s : State) (a : Word) (v : Half) : (s.storeHalf a v).lock = s.lock := rfl
@[simp] theorem State.storeHalf_coproc (s : State) (a : Word) (v : Half) : (s.storeHalf a v).coproc = s.coproc := rfl
@[simp] theorem State.storeHalf_irq (s : State) (a : Word) (v : Half) : (s.storeHalf a v).irq = s.irq := rfl
@[simp] theorem State.storeHalf_draws (s : State) (a : Word) (v : Half) : (s.storeHalf a v).draws = s.draws := rfl
@[simp] theorem State.storeHalf_issue (s : State) (a : Word) (v : Half) : (s.storeHalf a v).issue = s.issue := rfl

/-! ## `State.storeWord` -/

@[simp] theorem State.storeWord_pc (s : State) (a v : Word) : (s.storeWord a v).pc = s.pc := rfl
@[simp] theorem State.storeWord_r (s : State) (a v : Word) : (s.storeWord a v).r = s.r := rfl
@[simp] theorem State.storeWord_spi (s : State) (a v : Word) : (s.storeWord a v).spi = s.spi := rfl
@[simp] theorem State.storeWord_spu (s : State) (a v : Word) : (s.storeWord a v).spu = s.spu := rfl
@[simp] theorem State.storeWord_psw (s : State) (a v : Word) : (s.storeWord a v).psw = s.psw := rfl
@[simp] theorem State.storeWord_evb (s : State) (a v : Word) : (s.storeWord a v).evb = s.evb := rfl
@[simp] theorem State.storeWord_evbWritten (s : State) (a v : Word) : (s.storeWord a v).evbWritten = s.evbWritten := rfl
@[simp] theorem State.storeWord_bpc (s : State) (a v : Word) : (s.storeWord a v).bpc = s.bpc := rfl
@[simp] theorem State.storeWord_acc0 (s : State) (a v : Word) : (s.storeWord a v).acc0 = s.acc0 := rfl
@[simp] theorem State.storeWord_acc1 (s : State) (a v : Word) : (s.storeWord a v).acc1 = s.acc1 := rfl
@[simp] theorem State.storeWord_lock (s : State) (a v : Word) : (s.storeWord a v).lock = s.lock := rfl
@[simp] theorem State.storeWord_coproc (s : State) (a v : Word) : (s.storeWord a v).coproc = s.coproc := rfl
@[simp] theorem State.storeWord_irq (s : State) (a v : Word) : (s.storeWord a v).irq = s.irq := rfl
@[simp] theorem State.storeWord_draws (s : State) (a v : Word) : (s.storeWord a v).draws = s.draws := rfl
@[simp] theorem State.storeWord_issue (s : State) (a v : Word) : (s.storeWord a v).issue = s.issue := rfl

/-! ## `State.drawn` -/

@[simp] theorem State.drawn_pc (s : State) (k : Nat) : (s.drawn k).pc = s.pc := rfl
@[simp] theorem State.drawn_r (s : State) (k : Nat) : (s.drawn k).r = s.r := rfl
@[simp] theorem State.drawn_spi (s : State) (k : Nat) : (s.drawn k).spi = s.spi := rfl
@[simp] theorem State.drawn_spu (s : State) (k : Nat) : (s.drawn k).spu = s.spu := rfl
@[simp] theorem State.drawn_psw (s : State) (k : Nat) : (s.drawn k).psw = s.psw := rfl
@[simp] theorem State.drawn_evb (s : State) (k : Nat) : (s.drawn k).evb = s.evb := rfl
@[simp] theorem State.drawn_evbWritten (s : State) (k : Nat) : (s.drawn k).evbWritten = s.evbWritten := rfl
@[simp] theorem State.drawn_bpc (s : State) (k : Nat) : (s.drawn k).bpc = s.bpc := rfl
@[simp] theorem State.drawn_acc0 (s : State) (k : Nat) : (s.drawn k).acc0 = s.acc0 := rfl
@[simp] theorem State.drawn_acc1 (s : State) (k : Nat) : (s.drawn k).acc1 = s.acc1 := rfl
@[simp] theorem State.drawn_lock (s : State) (k : Nat) : (s.drawn k).lock = s.lock := rfl
@[simp] theorem State.drawn_mem (s : State) (k : Nat) : (s.drawn k).mem = s.mem := rfl
@[simp] theorem State.drawn_stored (s : State) (k : Nat) : (s.drawn k).stored = s.stored := rfl
@[simp] theorem State.drawn_coproc (s : State) (k : Nat) : (s.drawn k).coproc = s.coproc := rfl
@[simp] theorem State.drawn_irq (s : State) (k : Nat) : (s.drawn k).irq = s.irq := rfl
@[simp] theorem State.drawn_draws (s : State) (k : Nat) : (s.drawn k).draws = s.draws + k := rfl
@[simp] theorem State.drawn_issue (s : State) (k : Nat) : (s.drawn k).issue = s.issue := rfl

/-! ## `State.link` -/

@[simp] theorem State.link_pc (s : State) : s.link.pc = s.pc := by simp [State.link]
@[simp] theorem State.link_psw (s : State) : s.link.psw = s.psw := by simp [State.link]
@[simp] theorem State.link_evb (s : State) : s.link.evb = s.evb := by simp [State.link]
@[simp] theorem State.link_evbWritten (s : State) : s.link.evbWritten = s.evbWritten := by simp [State.link]
@[simp] theorem State.link_bpc (s : State) : s.link.bpc = s.bpc := by simp [State.link]
@[simp] theorem State.link_acc0 (s : State) : s.link.acc0 = s.acc0 := by simp [State.link]
@[simp] theorem State.link_acc1 (s : State) : s.link.acc1 = s.acc1 := by simp [State.link]
@[simp] theorem State.link_lock (s : State) : s.link.lock = s.lock := by simp [State.link]
@[simp] theorem State.link_mem (s : State) : s.link.mem = s.mem := by simp [State.link]
@[simp] theorem State.link_stored (s : State) : s.link.stored = s.stored := by simp [State.link]
@[simp] theorem State.link_coproc (s : State) : s.link.coproc = s.coproc := by simp [State.link]
@[simp] theorem State.link_irq (s : State) : s.link.irq = s.irq := by simp [State.link]
@[simp] theorem State.link_draws (s : State) : s.link.draws = s.draws := by simp [State.link]
@[simp] theorem State.link_issue (s : State) : s.link.issue = s.issue := by simp [State.link]

/-! ## `State.eitEntry` -/

@[simp] theorem State.eitEntry_pc (s : State) (k : Eit) (bpc : Word) : (s.eitEntry k bpc).pc = s.eitVector k := rfl
@[simp] theorem State.eitEntry_r (s : State) (k : Eit) (bpc : Word) : (s.eitEntry k bpc).r = s.r := rfl
@[simp] theorem State.eitEntry_spi (s : State) (k : Eit) (bpc : Word) : (s.eitEntry k bpc).spi = s.spi := rfl
@[simp] theorem State.eitEntry_spu (s : State) (k : Eit) (bpc : Word) : (s.eitEntry k bpc).spu = s.spu := rfl
@[simp] theorem State.eitEntry_psw (s : State) (k : Eit) (bpc : Word) : (s.eitEntry k bpc).psw = s.psw.enterEit := rfl
@[simp] theorem State.eitEntry_evb (s : State) (k : Eit) (bpc : Word) : (s.eitEntry k bpc).evb = s.evb := rfl
@[simp] theorem State.eitEntry_evbWritten (s : State) (k : Eit) (bpc : Word) : (s.eitEntry k bpc).evbWritten = s.evbWritten := rfl
@[simp] theorem State.eitEntry_bpc (s : State) (k : Eit) (bpc : Word) : (s.eitEntry k bpc).bpc = bpc &&& 0xFFFFFFFE := rfl
@[simp] theorem State.eitEntry_acc0 (s : State) (k : Eit) (bpc : Word) : (s.eitEntry k bpc).acc0 = s.acc0 := rfl
@[simp] theorem State.eitEntry_acc1 (s : State) (k : Eit) (bpc : Word) : (s.eitEntry k bpc).acc1 = s.acc1 := rfl
@[simp] theorem State.eitEntry_lock (s : State) (k : Eit) (bpc : Word) : (s.eitEntry k bpc).lock = s.lock := rfl
@[simp] theorem State.eitEntry_mem (s : State) (k : Eit) (bpc : Word) : (s.eitEntry k bpc).mem = s.mem := rfl
@[simp] theorem State.eitEntry_stored (s : State) (k : Eit) (bpc : Word) : (s.eitEntry k bpc).stored = s.stored := rfl
@[simp] theorem State.eitEntry_coproc (s : State) (k : Eit) (bpc : Word) : (s.eitEntry k bpc).coproc = s.coproc := rfl
@[simp] theorem State.eitEntry_irq (s : State) (k : Eit) (bpc : Word) : (s.eitEntry k bpc).irq = s.irq := rfl
@[simp] theorem State.eitEntry_draws (s : State) (k : Eit) (bpc : Word) : (s.eitEntry k bpc).draws = s.draws := rfl
@[simp] theorem State.eitEntry_issue (s : State) (k : Eit) (bpc : Word) : (s.eitEntry k bpc).issue = s.issue := rfl

/-! ## `State.abortPair` -/

@[simp] theorem State.abortPair_pc (s : State) : s.abortPair.pc = s.pc := rfl
@[simp] theorem State.abortPair_r (s : State) : s.abortPair.r = s.r := rfl
@[simp] theorem State.abortPair_spi (s : State) : s.abortPair.spi = s.spi := rfl
@[simp] theorem State.abortPair_spu (s : State) : s.abortPair.spu = s.spu := rfl
@[simp] theorem State.abortPair_psw (s : State) : s.abortPair.psw = s.psw := rfl
@[simp] theorem State.abortPair_evb (s : State) : s.abortPair.evb = s.evb := rfl
@[simp] theorem State.abortPair_evbWritten (s : State) : s.abortPair.evbWritten = s.evbWritten := rfl
@[simp] theorem State.abortPair_bpc (s : State) : s.abortPair.bpc = s.bpc := rfl
@[simp] theorem State.abortPair_acc0 (s : State) : s.abortPair.acc0 = s.acc0 := rfl
@[simp] theorem State.abortPair_acc1 (s : State) : s.abortPair.acc1 = s.acc1 := rfl
@[simp] theorem State.abortPair_lock (s : State) : s.abortPair.lock = s.lock := rfl
@[simp] theorem State.abortPair_mem (s : State) : s.abortPair.mem = s.mem := rfl
@[simp] theorem State.abortPair_stored (s : State) : s.abortPair.stored = s.stored := rfl
@[simp] theorem State.abortPair_coproc (s : State) : s.abortPair.coproc = s.coproc := rfl
@[simp] theorem State.abortPair_irq (s : State) : s.abortPair.irq = s.irq := rfl
@[simp] theorem State.abortPair_draws (s : State) : s.abortPair.draws = s.draws := rfl
@[simp] theorem State.abortPair_issue (s : State) : s.abortPair.issue = (match s.issue with | .paired => .aborted | x => x) := rfl

/-! ## `State.returnFromEit` -/

@[simp] theorem State.returnFromEit_pc (s : State) : s.returnFromEit.pc = s.bpc &&& 0xFFFFFFFE := rfl
@[simp] theorem State.returnFromEit_r (s : State) : s.returnFromEit.r = s.r := rfl
@[simp] theorem State.returnFromEit_spi (s : State) : s.returnFromEit.spi = s.spi := rfl
@[simp] theorem State.returnFromEit_spu (s : State) : s.returnFromEit.spu = s.spu := rfl
@[simp] theorem State.returnFromEit_psw (s : State) : s.returnFromEit.psw = s.psw.returnFromEit := rfl
@[simp] theorem State.returnFromEit_evb (s : State) : s.returnFromEit.evb = s.evb := rfl
@[simp] theorem State.returnFromEit_evbWritten (s : State) : s.returnFromEit.evbWritten = s.evbWritten := rfl
@[simp] theorem State.returnFromEit_bpc (s : State) : s.returnFromEit.bpc = s.bpc := rfl
@[simp] theorem State.returnFromEit_acc0 (s : State) : s.returnFromEit.acc0 = s.acc0 := rfl
@[simp] theorem State.returnFromEit_acc1 (s : State) : s.returnFromEit.acc1 = s.acc1 := rfl
@[simp] theorem State.returnFromEit_lock (s : State) : s.returnFromEit.lock = s.lock := rfl
@[simp] theorem State.returnFromEit_mem (s : State) : s.returnFromEit.mem = s.mem := rfl
@[simp] theorem State.returnFromEit_stored (s : State) : s.returnFromEit.stored = s.stored := rfl
@[simp] theorem State.returnFromEit_coproc (s : State) : s.returnFromEit.coproc = s.coproc := rfl
@[simp] theorem State.returnFromEit_irq (s : State) : s.returnFromEit.irq = s.irq := rfl
@[simp] theorem State.returnFromEit_draws (s : State) : s.returnFromEit.draws = s.draws := rfl
@[simp] theorem State.returnFromEit_issue (s : State) : s.returnFromEit.issue = s.issue := rfl

/-! ## `State.setCoproc` -/

@[simp] theorem State.setCoproc_pc (s : State) (cpid : BitVec 4) (cp : Coproc) : (s.setCoproc cpid cp).pc = s.pc := rfl
@[simp] theorem State.setCoproc_r (s : State) (cpid : BitVec 4) (cp : Coproc) : (s.setCoproc cpid cp).r = s.r := rfl
@[simp] theorem State.setCoproc_spi (s : State) (cpid : BitVec 4) (cp : Coproc) : (s.setCoproc cpid cp).spi = s.spi := rfl
@[simp] theorem State.setCoproc_spu (s : State) (cpid : BitVec 4) (cp : Coproc) : (s.setCoproc cpid cp).spu = s.spu := rfl
@[simp] theorem State.setCoproc_psw (s : State) (cpid : BitVec 4) (cp : Coproc) : (s.setCoproc cpid cp).psw = s.psw := rfl
@[simp] theorem State.setCoproc_evb (s : State) (cpid : BitVec 4) (cp : Coproc) : (s.setCoproc cpid cp).evb = s.evb := rfl
@[simp] theorem State.setCoproc_evbWritten (s : State) (cpid : BitVec 4) (cp : Coproc) : (s.setCoproc cpid cp).evbWritten = s.evbWritten := rfl
@[simp] theorem State.setCoproc_bpc (s : State) (cpid : BitVec 4) (cp : Coproc) : (s.setCoproc cpid cp).bpc = s.bpc := rfl
@[simp] theorem State.setCoproc_acc0 (s : State) (cpid : BitVec 4) (cp : Coproc) : (s.setCoproc cpid cp).acc0 = s.acc0 := rfl
@[simp] theorem State.setCoproc_acc1 (s : State) (cpid : BitVec 4) (cp : Coproc) : (s.setCoproc cpid cp).acc1 = s.acc1 := rfl
@[simp] theorem State.setCoproc_lock (s : State) (cpid : BitVec 4) (cp : Coproc) : (s.setCoproc cpid cp).lock = s.lock := rfl
@[simp] theorem State.setCoproc_mem (s : State) (cpid : BitVec 4) (cp : Coproc) : (s.setCoproc cpid cp).mem = s.mem := rfl
@[simp] theorem State.setCoproc_stored (s : State) (cpid : BitVec 4) (cp : Coproc) : (s.setCoproc cpid cp).stored = s.stored := rfl
@[simp] theorem State.setCoproc_coproc (s : State) (cpid : BitVec 4) (cp : Coproc) : (s.setCoproc cpid cp).coproc = s.coproc.set cpid.toNat (some cp) cpid.isLt := rfl
@[simp] theorem State.setCoproc_irq (s : State) (cpid : BitVec 4) (cp : Coproc) : (s.setCoproc cpid cp).irq = s.irq := rfl
@[simp] theorem State.setCoproc_draws (s : State) (cpid : BitVec 4) (cp : Coproc) : (s.setCoproc cpid cp).draws = s.draws := rfl
@[simp] theorem State.setCoproc_issue (s : State) (cpid : BitVec 4) (cp : Coproc) : (s.setCoproc cpid cp).issue = s.issue := rfl

/-! ## `State.resetEvent` -/

@[simp] theorem State.resetEvent_pc (s : State) : s.resetEvent.pc = 0 := rfl
@[simp] theorem State.resetEvent_r (s : State) : s.resetEvent.r = State.reset.r := rfl
@[simp] theorem State.resetEvent_spi (s : State) : s.resetEvent.spi = State.reset.spi := rfl
@[simp] theorem State.resetEvent_spu (s : State) : s.resetEvent.spu = State.reset.spu := rfl
@[simp] theorem State.resetEvent_psw (s : State) : s.resetEvent.psw = Psw.reset := rfl
@[simp] theorem State.resetEvent_evb (s : State) : s.resetEvent.evb = State.reset.evb := rfl
@[simp] theorem State.resetEvent_evbWritten (s : State) : s.resetEvent.evbWritten = State.reset.evbWritten := rfl
@[simp] theorem State.resetEvent_bpc (s : State) : s.resetEvent.bpc = State.reset.bpc := rfl
@[simp] theorem State.resetEvent_acc0 (s : State) : s.resetEvent.acc0 = State.reset.acc0 := rfl
@[simp] theorem State.resetEvent_acc1 (s : State) : s.resetEvent.acc1 = State.reset.acc1 := rfl
@[simp] theorem State.resetEvent_lock (s : State) : s.resetEvent.lock = State.reset.lock := rfl
@[simp] theorem State.resetEvent_mem (s : State) : s.resetEvent.mem = s.mem := rfl
@[simp] theorem State.resetEvent_stored (s : State) : s.resetEvent.stored = State.reset.stored := rfl
@[simp] theorem State.resetEvent_coproc (s : State) : s.resetEvent.coproc = s.coproc := rfl
@[simp] theorem State.resetEvent_irq (s : State) : s.resetEvent.irq = s.irq := rfl
@[simp] theorem State.resetEvent_draws (s : State) : s.resetEvent.draws = s.draws := rfl
@[simp] theorem State.resetEvent_issue (s : State) : s.resetEvent.issue = State.reset.issue := rfl

/-! ## `State.passBoundary` -/

@[simp] theorem State.passBoundary_pc (s : State) : s.passBoundary.pc = s.pc := rfl
@[simp] theorem State.passBoundary_r (s : State) : s.passBoundary.r = s.r := rfl
@[simp] theorem State.passBoundary_spi (s : State) : s.passBoundary.spi = s.spi := rfl
@[simp] theorem State.passBoundary_spu (s : State) : s.passBoundary.spu = s.spu := rfl
@[simp] theorem State.passBoundary_psw (s : State) : s.passBoundary.psw = s.psw := rfl
@[simp] theorem State.passBoundary_evb (s : State) : s.passBoundary.evb = s.evb := rfl
@[simp] theorem State.passBoundary_evbWritten (s : State) : s.passBoundary.evbWritten = s.evbWritten := rfl
@[simp] theorem State.passBoundary_bpc (s : State) : s.passBoundary.bpc = s.bpc := rfl
@[simp] theorem State.passBoundary_acc0 (s : State) : s.passBoundary.acc0 = s.acc0 := rfl
@[simp] theorem State.passBoundary_acc1 (s : State) : s.passBoundary.acc1 = s.acc1 := rfl
@[simp] theorem State.passBoundary_lock (s : State) : s.passBoundary.lock = s.lock := rfl
@[simp] theorem State.passBoundary_mem (s : State) : s.passBoundary.mem = s.mem := rfl
@[simp] theorem State.passBoundary_stored (s : State) : s.passBoundary.stored = s.stored := rfl
@[simp] theorem State.passBoundary_coproc (s : State) : s.passBoundary.coproc = s.coproc := rfl
@[simp] theorem State.passBoundary_irq (s : State) : s.passBoundary.irq = s.irq.tail := rfl
@[simp] theorem State.passBoundary_draws (s : State) : s.passBoundary.draws = s.draws := rfl
@[simp] theorem State.passBoundary_issue (s : State) : s.passBoundary.issue = .alone := rfl

/-! ## `settle` -/

@[simp] theorem settle_pc (s : State) : (settle s).pc = s.pc := rfl
@[simp] theorem settle_r (s : State) : (settle s).r = s.r := rfl
@[simp] theorem settle_spi (s : State) : (settle s).spi = s.spi := rfl
@[simp] theorem settle_spu (s : State) : (settle s).spu = s.spu := rfl
@[simp] theorem settle_psw (s : State) : (settle s).psw = s.psw := rfl
@[simp] theorem settle_evb (s : State) : (settle s).evb = s.evb := rfl
@[simp] theorem settle_evbWritten (s : State) : (settle s).evbWritten = s.evbWritten := rfl
@[simp] theorem settle_bpc (s : State) : (settle s).bpc = s.bpc := rfl
@[simp] theorem settle_acc0 (s : State) : (settle s).acc0 = s.acc0 := rfl
@[simp] theorem settle_acc1 (s : State) : (settle s).acc1 = s.acc1 := rfl
@[simp] theorem settle_lock (s : State) : (settle s).lock = s.lock := rfl
@[simp] theorem settle_mem (s : State) : (settle s).mem = s.mem := rfl
@[simp] theorem settle_stored (s : State) : (settle s).stored = s.stored := rfl
@[simp] theorem settle_coproc (s : State) : (settle s).coproc = s.coproc := rfl
@[simp] theorem settle_irq (s : State) : (settle s).irq = s.irq := rfl
@[simp] theorem settle_draws (s : State) : (settle s).draws = s.draws := rfl
@[simp] theorem settle_issue (s : State) : (settle s).issue = .alone := rfl

end Sys2Proof.Machine
end

