-- ==== Sys2Proof/Laws/Memory.lean ====
section
/-!
SUPPORT. Memory: what a read sees after a write, and that every operation keeps the canonical form.
-/

namespace Sys2Proof.Machine

/-! ## The canonical form -/

theorem Memory.wfFrom_cons (lo k : Nat) (b : Byte) (m : Memory) :
    Memory.wfFrom lo ((k, b) :: m) = true ↔
      lo ≤ k ∧ k < 4294967296 ∧ b ≠ Memory.unlisted ∧ Memory.wfFrom (k + 1) m = true := by
  simp [Memory.wfFrom, and_assoc]

theorem Memory.wfFrom_mono {lo lo' : Nat} {m : Memory} (h : Memory.wfFrom lo m = true) (hl : lo' ≤ lo) :
    Memory.wfFrom lo' m = true := by
  cases m with
  | nil => rfl
  | cons c m =>
    obtain ⟨k, b⟩ := c
    rw [Memory.wfFrom_cons] at h ⊢
    exact ⟨by omega, h.2⟩

/-- In a memory that is canonical from `lo` on, a byte below `lo` is not listed. -/
theorem Memory.readByte_below {lo a : Nat} {m : Memory} (h : Memory.wfFrom lo m = true) (ha : a < lo) :
    m.readByte a = Memory.unlisted := by
  induction m generalizing lo with
  | nil => rfl
  | cons c m ih =>
    obtain ⟨k, b⟩ := c
    rw [Memory.wfFrom_cons] at h
    rw [Memory.readByte, if_neg (by omega)]
    exact ih h.2.2.2 (by omega)

/-- A write keeps the canonical form. -/
theorem Memory.writeByte_wfFrom {lo a : Nat} {m : Memory} (h : Memory.wfFrom lo m = true) (hl : lo ≤ a)
    (ha : a < 4294967296) (b : Byte) : Memory.wfFrom lo (m.writeByte a b) = true := by
  induction m generalizing lo with
  | nil =>
    rw [Memory.writeByte]
    split
    · rfl
    · rw [Memory.wfFrom_cons]
      exact ⟨hl, ha, ‹_›, rfl⟩
  | cons c m ih =>
    obtain ⟨k, x⟩ := c
    have hc := (Memory.wfFrom_cons ..).1 h
    rw [Memory.writeByte]
    split
    · split
      · exact h
      · rw [Memory.wfFrom_cons, Memory.wfFrom_cons]
        exact ⟨hl, ha, ‹_›, by omega, hc.2⟩
    · split
      · split
        · exact Memory.wfFrom_mono hc.2.2.2 (by omega)
        · rw [Memory.wfFrom_cons]
          subst_vars
          exact ⟨hl, ha, ‹_›, hc.2.2.2⟩
      · rw [Memory.wfFrom_cons]
        exact ⟨hc.1, hc.2.1, hc.2.2.1, ih hc.2.2.2 (by omega)⟩

theorem Memory.writeByte_wf {m : Memory} (h : m.wf = true) (a : Word) (b : Byte) :
    (m.writeByte a.toNat b).wf = true :=
  Memory.writeByte_wfFrom h (Nat.zero_le _) a.isLt b

/-- A read after a write: the byte written, or what was there. -/
theorem Memory.readByte_writeByte {lo a : Nat} {m : Memory} (h : Memory.wfFrom lo m = true) (b : Byte) (x : Nat) :
    (m.writeByte a b).readByte x = if x = a then b else m.readByte x := by
  induction m generalizing lo with
  | nil =>
    by_cases hb : b = Memory.unlisted <;> by_cases hx : x = a <;> simp [Memory.writeByte, Memory.readByte, hb, hx, Ne.symm]
  | cons c m ih =>
    obtain ⟨k, y⟩ := c
    have hc := (Memory.wfFrom_cons ..).1 h
    have below : ∀ z, z < k → Memory.readByte ((k, y) :: m) z = Memory.unlisted := fun z hz =>
      Memory.readByte_below ((Memory.wfFrom_cons k k y m).2 ⟨le_refl k, hc.2⟩) hz
    rw [Memory.writeByte]
    by_cases hak : a < k
    · rw [if_pos hak]
      by_cases hb : b = Memory.unlisted
      · rw [if_pos hb]
        by_cases hx : x = a
        · rw [if_pos hx, hb, below x (by omega)]
        · rw [if_neg hx]
      · rw [if_neg hb, Memory.readByte]
        by_cases hx : x = a
        · rw [if_pos hx, if_pos hx.symm]
        · rw [if_neg hx, if_neg (Ne.symm hx)]
    · rw [if_neg hak]
      by_cases hka : a = k
      · rw [if_pos hka]
        subst hka
        by_cases hb : b = Memory.unlisted
        · rw [if_pos hb]
          by_cases hx : x = a
          · rw [if_pos hx, hb, Memory.readByte_below hc.2.2.2 (by omega)]
          · rw [if_neg hx, Memory.readByte, if_neg (Ne.symm hx)]
        · rw [if_neg hb, Memory.readByte]
          by_cases hx : x = a
          · rw [if_pos hx, if_pos hx.symm]
          · rw [if_neg hx, if_neg (Ne.symm hx), Memory.readByte, if_neg (Ne.symm hx)]
      · rw [if_neg hka, Memory.readByte, Memory.readByte, ih hc.2.2.2]
        by_cases hkx : k = x
        · rw [if_pos hkx, if_neg (by omega), if_pos hkx]
        · rw [if_neg hkx, if_neg hkx]

/-- Two canonical memories that read the same everywhere are the same data. -/
theorem Memory.eq_of_readByte {lo : Nat} {m n : Memory} (hm : Memory.wfFrom lo m = true)
    (hn : Memory.wfFrom lo n = true) (h : ∀ a, m.readByte a = n.readByte a) : m = n := by
  induction m generalizing lo n with
  | nil =>
    cases n with
    | nil => rfl
    | cons c n =>
      obtain ⟨k, b⟩ := c
      have hk := h k
      simp only [Memory.readByte, if_true] at hk
      exact absurd hk.symm ((Memory.wfFrom_cons ..).1 hn).2.2.1
  | cons c m ih =>
    obtain ⟨k, b⟩ := c
    have hc := (Memory.wfFrom_cons ..).1 hm
    cases n with
    | nil =>
      have hk := h k
      simp only [Memory.readByte, if_true] at hk
      exact absurd hk hc.2.2.1
    | cons c' n =>
      obtain ⟨k', b'⟩ := c'
      have hc' := (Memory.wfFrom_cons ..).1 hn
      have hkk : k = k' := by
        rcases Nat.lt_trichotomy k k' with hlt | heq | hlt
        · have hk := h k
          simp only [Memory.readByte, if_true, if_neg (Nat.ne_of_gt hlt)] at hk
          rw [Memory.readByte_below hc'.2.2.2 (by omega)] at hk
          exact absurd hk hc.2.2.1
        · exact heq
        · have hk := h k'
          simp only [Memory.readByte, if_true, if_neg (Nat.ne_of_gt hlt)] at hk
          rw [Memory.readByte_below hc.2.2.2 (by omega)] at hk
          exact absurd hk.symm hc'.2.2.1
      subst hkk
      have hb := h k
      simp only [Memory.readByte, if_true] at hb
      subst hb
      have hrest : ∀ a, Memory.readByte m a = Memory.readByte n a := by
        intro a
        by_cases hak : k = a
        · subst hak
          rw [Memory.readByte_below hc.2.2.2 (by omega), Memory.readByte_below hc'.2.2.2 (by omega)]
        · have ha := h a
          simpa only [Memory.readByte, if_neg hak] using ha
      rw [ih hc.2.2.2 hc'.2.2.2 hrest]

theorem State.reset_mem_wf : State.reset.mem.wf = true := rfl

/-! ## Stores -/

theorem State.storeByte_wf {s : State} (h : s.mem.wf = true) (a : Word) (b : Byte) :
    (s.storeByte a b).mem.wf = true := Memory.writeByte_wf h a b

theorem State.storeHalf_wf {s : State} (h : s.mem.wf = true) (a : Word) (v : Half) :
    (s.storeHalf a v).mem.wf = true := State.storeByte_wf (State.storeByte_wf h _ _) _ _

theorem State.storeWord_wf {s : State} (h : s.mem.wf = true) (a v : Word) :
    (s.storeWord a v).mem.wf = true :=
  State.storeByte_wf (State.storeByte_wf (State.storeByte_wf (State.storeByte_wf h _ _) _ _) _ _) _ _

theorem Memory.place_wf {m : Memory} (h : m.wf = true) (a : Nat) (bs : List Byte)
    (ha : a + bs.length ≤ 4294967296) : (m.place a bs).wf = true := by
  induction bs generalizing m a with
  | nil => exact h
  | cons b bs ih =>
    simp only [List.length_cons] at ha
    exact ih (Memory.writeByte_wfFrom h (Nat.zero_le _) (by omega) b) (a + 1) (by omega)

/-! ## The addresses stored to (R54) -/

theorem addrsWfFrom_mono {lo lo' : Nat} {l : List Nat} (h : addrsWfFrom lo l = true) (hl : lo' ≤ lo) :
    addrsWfFrom lo' l = true := by
  cases l with
  | nil => rfl
  | cons k l =>
    simp only [addrsWfFrom, Bool.and_eq_true, decide_eq_true_eq] at h ⊢
    exact ⟨⟨by omega, h.1.2⟩, h.2⟩

theorem insertAddr_wfFrom {lo a : Nat} {l : List Nat} (h : addrsWfFrom lo l = true) (hl : lo ≤ a)
    (ha : a < 4294967296) : addrsWfFrom lo (insertAddr a l) = true := by
  induction l generalizing lo with
  | nil => simp [insertAddr, addrsWfFrom, hl, ha]
  | cons k l ih =>
    have hc := h
    simp only [addrsWfFrom, Bool.and_eq_true, decide_eq_true_eq] at hc
    rw [insertAddr]
    split
    · simp only [addrsWfFrom, Bool.and_eq_true, decide_eq_true_eq]
      exact ⟨⟨hl, ha⟩, ⟨⟨by omega, hc.1.2⟩, hc.2⟩⟩
    · split
      · exact h
      · simp only [addrsWfFrom, Bool.and_eq_true, decide_eq_true_eq]
        exact ⟨hc.1, ih hc.2 (by omega)⟩

theorem mem_insertAddr (a x : Nat) (l : List Nat) : x ∈ insertAddr a l ↔ x = a ∨ x ∈ l := by
  induction l with
  | nil => simp [insertAddr]
  | cons k l ih =>
    rw [insertAddr]
    split
    · simp
    · split
      · subst_vars
        simp
      · simp only [List.mem_cons, ih]
        tauto

end Sys2Proof.Machine
end

