-- ==== Sys2Proof/Laws/Registers.lean ====
section
/-!
SUPPORT. Reading register cells, general registers, accumulators, the address of the word and the fall-through
address after the updates of State.
-/

namespace Sys2Proof.Machine

/-! ## Register cells -/

theorem State.readStore_writeStore (s : State) (p q : Store) (v : Word) :
    (s.writeStore p v).readStore q = if q = p then v else s.readStore q := by
  cases p with
  | r n =>
    cases q with
    | r m =>
      simp only [State.writeStore, State.readStore, Vector.get_eq_getElem, Store.r.injEq]
      rw [Vector.getElem_set]
      by_cases h : m = n
      · subst h
        simp
      · rw [if_neg (fun e => h (Fin.ext e.symm)), if_neg h]
    | spi => simp [State.writeStore, State.readStore]
    | spu => simp [State.writeStore, State.readStore]
  | spi => cases q <;> simp [State.writeStore, State.readStore]
  | spu => cases q <;> simp [State.writeStore, State.readStore]

theorem State.readStore_setReg (s : State) (n : Reg) (v : Word) (q : Store) :
    (s.setReg n v).readStore q = if q = s.physReg n then v else s.readStore q :=
  s.readStore_writeStore _ q v

/-- The cells of two states agree when R0 to R14, SPI and SPU do. -/
theorem State.readStore_congr {s t : State} (hr : t.r = s.r) (hi : t.spi = s.spi) (hu : t.spu = s.spu) (p : Store) :
    t.readStore p = s.readStore p := by
  cases p <;> simp [State.readStore, hr, hi, hu]

/-- Cells are read in the registers and the stack pointers only, and a register number names a cell by SM only. -/
theorem State.getReg_congr {s t : State} (hr : t.r = s.r) (hi : t.spi = s.spi) (hu : t.spu = s.spu)
    (hm : t.psw.sm = s.psw.sm) (n : Reg) : t.getReg n = s.getReg n := by
  simp [State.getReg, State.physReg, hm, State.readStore_congr hr hi hu]

theorem State.physReg_congr {s t : State} (hm : t.psw.sm = s.psw.sm) (n : Reg) : t.physReg n = s.physReg n := by
  simp [State.physReg, hm]

@[simp] theorem State.physReg_setReg (s : State) (d : Reg) (v : Word) (n : Reg) :
    (s.setReg d v).physReg n = s.physReg n := State.physReg_congr (by simp) n

@[simp] theorem State.physReg_writeStore (s : State) (p : Store) (v : Word) (n : Reg) :
    (s.writeStore p v).physReg n = s.physReg n := State.physReg_congr (by simp) n

@[simp] theorem State.physReg_setC (s : State) (b : Bool) (n : Reg) : (s.setC b).physReg n = s.physReg n :=
  State.physReg_congr (by simp) n

@[simp] theorem State.physReg_storeWord (s : State) (a v : Word) (n : Reg) :
    (s.storeWord a v).physReg n = s.physReg n := State.physReg_congr (by simp) n

@[simp] theorem State.physReg_storeHalf (s : State) (a : Word) (v : Half) (n : Reg) :
    (s.storeHalf a v).physReg n = s.physReg n := State.physReg_congr (by simp) n

@[simp] theorem State.physReg_storeByte (s : State) (a : Word) (v : Byte) (n : Reg) :
    (s.storeByte a v).physReg n = s.physReg n := State.physReg_congr (by simp) n

@[simp] theorem State.physReg_drawn (s : State) (k : Nat) (n : Reg) : (s.drawn k).physReg n = s.physReg n := rfl

@[simp] theorem State.physReg_passBoundary (s : State) (n : Reg) : s.passBoundary.physReg n = s.physReg n := rfl

@[simp] theorem State.physReg_setCoproc (s : State) (c : BitVec 4) (cp : Coproc) (n : Reg) :
    (s.setCoproc c cp).physReg n = s.physReg n := rfl

@[simp] theorem State.readStore_passBoundary (s : State) (p : Store) : s.passBoundary.readStore p = s.readStore p := by
  cases p <;> rfl

@[simp] theorem State.getReg_passBoundary (s : State) (n : Reg) : s.passBoundary.getReg n = s.getReg n := by
  simp [State.getReg]

/-- A register reads what was written to it, and the others what they held (R11, R12). -/
theorem State.getReg_setReg (s : State) (d n : Reg) (v : Word) :
    (s.setReg d v).getReg n = if s.physReg n = s.physReg d then v else s.getReg n := by
  simp [State.getReg, State.readStore_setReg]

/-- Two register numbers name one cell only when they are the same. -/
theorem State.physReg_inj (s : State) {m n : Reg} : s.physReg m = s.physReg n ↔ m = n := by
  refine ⟨fun h => BitVec.eq_of_toNat_eq ?_, fun h => h ▸ rfl⟩
  have := m.isLt
  have := n.isLt
  by_cases hm : m.toNat < 15 <;> by_cases hn : n.toNat < 15 <;> cases hs : s.psw.sm <;>
    simp [State.physReg, hm, hn, hs] at h <;> omega

/-! ## Fall-through -/

theorem State.fallThrough_congr {s t : State} (hp : t.pc = s.pc) (hi : t.issue = s.issue) (len : Word) :
    t.fallThrough len = s.fallThrough len := by
  simp [State.fallThrough, State.wordBase, hp, hi]

/-! ## Accumulators (R29) -/

theorem State.accBits_writeAcc (s : State) (a b : Acc) (v : BitVec 64) :
    (s.writeAcc a v).accBits b = if b = a then v.setWidth 56 else s.accBits b := by
  cases a <;> cases b <;> simp [State.accBits]

end Sys2Proof.Machine
end

