-- ==== Sys2Proof/Laws/Operations.lean ====
section
/-!
SUPPORT. What each shared operation does, said once: the state it leaves, or the ways it can end. Later proofs cite
these and do not unfold the operations.
-/

namespace Sys2Proof.Machine

/-! ## `Leaves` without a store -/

theorem not_inBytes_nil (ea a : Nat) : ¬ InBytes ea [] a := by
  simp only [InBytes, List.length_nil]
  omega

/-- A state that differs from `s` in registers and control state only. -/
theorem Leaves.withoutStore {s t : State} {pc : Word} {regs : List (Store × Word)} {psw : Psw} {x y : BitVec 56}
    {lock : Bool} {evb : Word} {evbWritten : Bool} {bpc : Word} {coproc : Vector (Option Coproc) 16} {issue : Issue}
    (hpc : t.pc = pc) (hregs : ∀ p, t.readStore p = (regs.lookup p).getD (s.readStore p)) (hpsw : t.psw = psw)
    (hx : t.acc0 = x) (hy : t.acc1 = y) (hlock : t.lock = lock) (hevb : t.evb = evb)
    (hw : t.evbWritten = evbWritten) (hbpc : t.bpc = bpc) (hcoproc : t.coproc = coproc) (hissue : t.issue = issue)
    (hirq : t.irq = s.irq) (hmem : t.mem = s.mem) (hstored : t.stored = s.stored) :
    Leaves s t pc regs psw x y lock evb evbWritten bpc coproc issue where
  pc := hpc
  regs := hregs
  psw := hpsw
  acc0 := hx
  acc1 := hy
  lock := hlock
  evb := hevb
  evbWritten := hw
  bpc := hbpc
  coproc := hcoproc
  issue := hissue
  irq := hirq
  bytesIn := fun a h => absurd h (not_inBytes_nil 0 a)
  bytesOut := fun a _ => by rw [hmem]
  stored := fun a => by simp [hstored, not_inBytes_nil]

theorem lookup_single (p q : Store) (v w : Word) : (List.lookup q [(p, v)]).getD w = if q = p then v else w := by
  by_cases h : q = p
  · simp [List.lookup, h]
  · simp [List.lookup, h, beq_false_of_ne h]

theorem lookup_pair (p p' q : Store) (v v' w : Word) :
    (List.lookup q [(p, v), (p', v')]).getD w = if q = p then v else if q = p' then v' else w := by
  by_cases h : q = p
  · simp [List.lookup, h]
  · by_cases h' : q = p'
    · subst h'
      simp [List.lookup, h, beq_false_of_ne h]
    · simp [List.lookup, h, h', beq_false_of_ne h, beq_false_of_ne h']

@[simp] theorem State.readStore_advance (s : State) (len : Word) (p : Store) :
    (s.advance len).readStore p = s.readStore p := by cases p <;> rfl

@[simp] theorem State.readStore_goto (s : State) (a : Word) (p : Store) : (s.goto a).readStore p = s.readStore p := by
  cases p <;> rfl

@[simp] theorem State.readStore_setC (s : State) (b : Bool) (p : Store) : (s.setC b).readStore p = s.readStore p := by
  cases p <;> rfl

@[simp] theorem State.readStore_drawn (s : State) (k : Nat) (p : Store) : (s.drawn k).readStore p = s.readStore p := by
  cases p <;> rfl

@[simp] theorem State.readStore_writeAcc (s : State) (a : Acc) (v : BitVec 64) (p : Store) :
    (s.writeAcc a v).readStore p = s.readStore p := by cases p <;> simp [State.readStore]

@[simp] theorem State.readStore_eitEntry (s : State) (k : Eit) (b : Word) (p : Store) :
    (s.eitEntry k b).readStore p = s.readStore p := by cases p <;> rfl

@[simp] theorem State.readStore_abortPair (s : State) (p : Store) : s.abortPair.readStore p = s.readStore p := by
  cases p <;> rfl

@[simp] theorem State.readStore_returnFromEit (s : State) (p : Store) :
    s.returnFromEit.readStore p = s.readStore p := by cases p <;> rfl

@[simp] theorem State.readStore_setCoproc (s : State) (c : BitVec 4) (cp : Coproc) (p : Store) :
    (s.setCoproc c cp).readStore p = s.readStore p := by cases p <;> rfl

@[simp] theorem State.readStore_storeByte (s : State) (a : Word) (b : Byte) (p : Store) :
    (s.storeByte a b).readStore p = s.readStore p := by cases p <;> rfl

@[simp] theorem State.readStore_storeHalf (s : State) (a : Word) (v : Half) (p : Store) :
    (s.storeHalf a v).readStore p = s.readStore p := by cases p <;> rfl

@[simp] theorem State.readStore_storeWord (s : State) (a v : Word) (p : Store) :
    (s.storeWord a v).readStore p = s.readStore p := by cases p <;> rfl

@[simp] theorem readStore_settle (s : State) (p : Store) : (settle s).readStore p = s.readStore p := by cases p <;> rfl

/-! ## Results -/

/-- An instruction that moves on and changes nothing else. -/
theorem State.advance_leaves (s : State) (len : Word) : Leaves s (s.advance len) (s.fallThrough len) := by
  apply Leaves.withoutStore <;> simp

/-- A jump that changes nothing else. -/
theorem State.goto_leaves (s : State) (a : Word) : Leaves s (s.goto a) a := by
  apply Leaves.withoutStore <;> simp

/-- A result goes to one register cell. -/
theorem State.result_leaves (s : State) (d : Reg) (v len : Word) :
    Leaves s (s.result d v len) (s.fallThrough len) (regs := [(s.physReg d, v)]) := by
  apply Leaves.withoutStore <;>
    simp [State.result, State.readStore_setReg, lookup_single, State.fallThrough_congr (s := s)]

/-- A result goes to C. -/
theorem State.resultC_leaves (s : State) (c : Bool) (len : Word) :
    Leaves s (s.resultC c len) (s.fallThrough len) (psw := { s.psw with c := c }) := by
  apply Leaves.withoutStore <;> simp [State.resultC]
  exact State.fallThrough_congr rfl rfl len

/-- A result goes to one register cell and to C. -/
theorem State.setC_result_leaves (s : State) (d : Reg) (v : Word) (c : Bool) (len : Word) :
    Leaves s ((s.setC c).result d v len) (s.fallThrough len) (regs := [(s.physReg d, v)])
      (psw := { s.psw with c := c }) := by
  apply Leaves.withoutStore <;>
    simp [State.result, State.readStore_setReg, lookup_single, State.fallThrough_congr (s := s)]

/-- A result goes to one accumulator. -/
theorem State.resultAcc_leaves (s : State) (a : Acc) (v : BitVec 64) (len : Word) :
    Leaves s (s.resultAcc a v len) (s.fallThrough len)
      (acc0 := if a = .a0 then v.setWidth 56 else s.acc0) (acc1 := if a = .a1 then v.setWidth 56 else s.acc1) := by
  apply Leaves.withoutStore <;> cases a <;> simp [State.resultAcc, State.fallThrough_congr (s := s)]

/-- A free value goes to one register cell. -/
theorem State.drawn_result_leaves (s : State) (k : Nat) (d : Reg) (v len : Word) :
    Leaves s ((s.drawn k).result d v len) (s.fallThrough len) (regs := [(s.physReg d, v)]) := by
  apply Leaves.withoutStore <;>
    simp [State.result, State.readStore_setReg, lookup_single, State.fallThrough_congr (s := s)]

/-- A call: R14 holds the link. -/
theorem State.link_goto_leaves (s : State) (a : Word) :
    Leaves s (s.link.goto a) a (regs := [(s.physReg 14, s.wordBase + 4)]) := by
  apply Leaves.withoutStore <;> simp [State.link, State.readStore_setReg, lookup_single]

/-! ## Stores -/

/-- The bytes that a run of consecutive byte stores leaves. -/
theorem inBytes_cons (ea a : Nat) (b : Byte) (bs : List Byte) :
    InBytes ea (b :: bs) a ↔ a = ea ∨ InBytes (ea + 1) bs a := by
  simp only [InBytes, List.length_cons]
  omega

theorem State.mem_storeByte_read {s : State} (h : s.mem.wf = true) (a : Word) (b : Byte) (x : Nat) :
    (s.storeByte a b).mem.readByte x = if x = a.toNat then b else s.mem.readByte x :=
  Memory.readByte_writeByte (lo := 0) h b x

theorem toNat_add_ofNat {a : Word} {k : Nat} (h : a.toNat + k < 4294967296) :
    (a + BitVec.ofNat 32 k).toNat = a.toNat + k := by
  rw [BitVec.toNat_add, BitVec.toNat_ofNat]
  omega

/-- An aligned access does not reach the top of the address space (R41). -/
theorem aligned_fits {a : Word} {n k : Nat} (h : a.toNat % n = 0) (hn : n = 1 ∨ n = 2 ∨ n = 4) (hk : k < n) :
    a.toNat + k < 4294967296 := by
  have := a.isLt
  rcases hn with rfl | rfl | rfl <;> omega

theorem State.storeHalf_read {s : State} (h : s.mem.wf = true) {a : Word} (ha : a.toNat % 2 = 0) (v : Half) (x : Nat) :
    (s.storeHalf a v).mem.readByte x =
      if x = a.toNat then v.extractLsb' 8 8 else if x = a.toNat + 1 then v.extractLsb' 0 8
      else s.mem.readByte x := by
  have h1 : (a + 1).toNat = a.toNat + 1 := toNat_add_ofNat (aligned_fits ha (.inr (.inl rfl)) (k := 1) (by omega))
  rw [State.storeHalf, State.mem_storeByte_read (State.storeByte_wf h _ _), State.mem_storeByte_read h, h1]
  by_cases hx : x = a.toNat
  · rw [if_neg (by omega), if_pos hx, if_pos hx]
  · simp only [if_neg hx]

theorem State.storeWord_read {s : State} (h : s.mem.wf = true) {a : Word} (ha : a.toNat % 4 = 0) (v : Word) (x : Nat) :
    (s.storeWord a v).mem.readByte x =
      if x = a.toNat then v.extractLsb' 24 8 else if x = a.toNat + 1 then v.extractLsb' 16 8
      else if x = a.toNat + 2 then v.extractLsb' 8 8 else if x = a.toNat + 3 then v.extractLsb' 0 8
      else s.mem.readByte x := by
  have h1 : (a + 1).toNat = a.toNat + 1 := toNat_add_ofNat (aligned_fits ha (.inr (.inr rfl)) (k := 1) (by omega))
  have h2 : (a + 2).toNat = a.toNat + 2 := toNat_add_ofNat (aligned_fits ha (.inr (.inr rfl)) (k := 2) (by omega))
  have h3 : (a + 3).toNat = a.toNat + 3 := toNat_add_ofNat (aligned_fits ha (.inr (.inr rfl)) (k := 3) (by omega))
  have w1 := State.storeByte_wf h a (v.extractLsb' 24 8)
  have w2 := State.storeByte_wf w1 (a + 1) (v.extractLsb' 16 8)
  have w3 := State.storeByte_wf w2 (a + 2) (v.extractLsb' 8 8)
  rw [State.storeWord, State.mem_storeByte_read w3, State.mem_storeByte_read w2, State.mem_storeByte_read w1,
    State.mem_storeByte_read h, h1, h2, h3]
  by_cases x0 : x = a.toNat
  · simp [x0]
  · by_cases x1 : x = a.toNat + 1
    · simp [x1]
    · by_cases x2 : x = a.toNat + 2
      · simp [x2]
      · simp [x0, x1, x2]

/-- `Leaves` for a state that a store of `bs` at `ea` has left. -/
theorem Leaves.withStore {s t : State} {pc : Word} {regs : List (Store × Word)} {lock : Bool} {ea : Nat}
    {bs : List Byte}
    (hpc : t.pc = pc) (hregs : ∀ p, t.readStore p = (regs.lookup p).getD (s.readStore p)) (hpsw : t.psw = s.psw)
    (hx : t.acc0 = s.acc0) (hy : t.acc1 = s.acc1) (hlock : t.lock = lock) (hevb : t.evb = s.evb)
    (hw : t.evbWritten = s.evbWritten) (hbpc : t.bpc = s.bpc) (hcoproc : t.coproc = s.coproc)
    (hissue : t.issue = s.issue) (hirq : t.irq = s.irq)
    (hin : ∀ a, InBytes ea bs a → t.mem.readByte a = bs.getD (a - ea) 0)
    (hout : ∀ a, ¬ InBytes ea bs a → t.mem.readByte a = s.mem.readByte a)
    (hstored : ∀ a, a ∈ t.stored ↔ a ∈ s.stored ∨ InBytes ea bs a) :
    Leaves s t pc (regs := regs) (lock := lock) (ea := ea) (bytes := bs) where
  pc := hpc
  regs := hregs
  psw := hpsw
  acc0 := hx
  acc1 := hy
  lock := hlock
  evb := hevb
  evbWritten := hw
  bpc := hbpc
  coproc := hcoproc
  issue := hissue
  irq := hirq
  bytesIn := hin
  bytesOut := hout
  stored := hstored

/-- What a store leaves of memory: the bytes at their addresses, the other bytes, and the addresses recorded. -/
structure Stored (s t : State) (ea : Nat) (bs : List Byte) : Prop where
  bytesIn : ∀ a, InBytes ea bs a → t.mem.readByte a = bs.getD (a - ea) 0
  bytesOut : ∀ a, ¬ InBytes ea bs a → t.mem.readByte a = s.mem.readByte a
  stored : ∀ a, a ∈ t.stored ↔ a ∈ s.stored ∨ InBytes ea bs a

theorem State.storeByte_bytes {s : State} (h : s.mem.wf = true) (a : Word) (b : Byte) :
    Stored s (s.storeByte a b) a.toNat [b] where
  bytesIn := fun x hx => by
    have hx : x = a.toNat := by
      simp only [InBytes, List.length_singleton] at hx
      omega
    rw [State.mem_storeByte_read h, if_pos hx, hx]
    simp
  bytesOut := fun x hx => by
    rw [State.mem_storeByte_read h, if_neg (fun e => hx (by simp [InBytes, e]))]
  stored := fun x => by
    simp only [State.storeByte_stored, mem_insertAddr, InBytes, List.length_singleton]
    by_cases hm : x ∈ s.stored <;> simp only [hm, or_true, or_false, true_or, false_or]
    omega

theorem State.storeHalf_bytes {s : State} (h : s.mem.wf = true) {a : Word} (ha : a.toNat % 2 = 0) (v : Half) :
    Stored s (s.storeHalf a v) a.toNat [v.extractLsb' 8 8, v.extractLsb' 0 8] where
  bytesIn := fun x hx => by
    simp only [InBytes, List.length_cons, List.length_nil] at hx
    rw [State.storeHalf_read h ha]
    obtain rfl | rfl : x = a.toNat ∨ x = a.toNat + 1 := by omega
    · simp
    · simp
  bytesOut := fun x hx => by
    simp only [InBytes, List.length_cons, List.length_nil] at hx
    rw [State.storeHalf_read h ha, if_neg (by omega), if_neg (by omega)]
  stored := fun x => by
    have h1 : (a + 1).toNat = a.toNat + 1 := toNat_add_ofNat (aligned_fits ha (.inr (.inl rfl)) (k := 1) (by omega))
    simp only [State.storeHalf, State.storeByte_stored, mem_insertAddr, InBytes, List.length_cons, List.length_nil, h1]
    by_cases hm : x ∈ s.stored <;> simp only [hm, or_true, or_false, true_or, false_or]
    omega

theorem State.storeWord_bytes {s : State} (h : s.mem.wf = true) {a : Word} (ha : a.toNat % 4 = 0) (v : Word) :
    Stored s (s.storeWord a v) a.toNat
      [v.extractLsb' 24 8, v.extractLsb' 16 8, v.extractLsb' 8 8, v.extractLsb' 0 8] where
  bytesIn := fun x hx => by
    simp only [InBytes, List.length_cons, List.length_nil] at hx
    rw [State.storeWord_read h ha]
    obtain rfl | rfl | rfl | rfl : x = a.toNat ∨ x = a.toNat + 1 ∨ x = a.toNat + 2 ∨ x = a.toNat + 3 := by omega
    all_goals simp
  bytesOut := fun x hx => by
    simp only [InBytes, List.length_cons, List.length_nil] at hx
    rw [State.storeWord_read h ha, if_neg (by omega), if_neg (by omega), if_neg (by omega), if_neg (by omega)]
  stored := fun x => by
    have h1 : (a + 1).toNat = a.toNat + 1 := toNat_add_ofNat (aligned_fits ha (.inr (.inr rfl)) (k := 1) (by omega))
    have h2 : (a + 2).toNat = a.toNat + 2 := toNat_add_ofNat (aligned_fits ha (.inr (.inr rfl)) (k := 2) (by omega))
    have h3 : (a + 3).toNat = a.toNat + 3 := toNat_add_ofNat (aligned_fits ha (.inr (.inr rfl)) (k := 3) (by omega))
    simp only [State.storeWord, State.storeByte_stored, mem_insertAddr, InBytes, List.length_cons, List.length_nil,
      h1, h2, h3]
    by_cases hm : x ∈ s.stored <;> simp only [hm, or_true, or_false, true_or, false_or]
    omega

/-- A store that moves on and changes nothing else. -/
theorem Stored.advance_leaves {s t : State} {ea : Nat} {bs : List Byte} (h : Stored s t ea bs) (len : Word)
    (ht : t = { s with mem := t.mem, stored := t.stored }) :
    Leaves s (t.advance len) (s.fallThrough len) (ea := ea) (bytes := bs) := by
  obtain ⟨m, l, rfl⟩ : ∃ m l, t = { s with mem := m, stored := l } := ⟨_, _, ht⟩
  apply Leaves.withStore (hin := fun a ha => by simpa using h.bytesIn a ha)
    (hout := fun a ha => by simpa using h.bytesOut a ha) (hstored := fun a => by simpa using h.stored a)
  all_goals first | rfl | (intro p; cases p <;> rfl)

/-- A store that also updates its base register. -/
theorem Stored.setReg_advance_leaves {s t : State} {ea : Nat} {bs : List Byte} (h : Stored s t ea bs) (d : Reg)
    (v len : Word) (ht : t = { s with mem := t.mem, stored := t.stored }) :
    Leaves s ((t.setReg d v).advance len) (s.fallThrough len) (regs := [(s.physReg d, v)])
      (ea := ea) (bytes := bs) := by
  obtain ⟨m, l, rfl⟩ : ∃ m l, t = { s with mem := m, stored := l } := ⟨_, _, ht⟩
  have hp : State.physReg { s with mem := m, stored := l } d = s.physReg d := rfl
  have hr : ∀ p, State.readStore { s with mem := m, stored := l } p = s.readStore p := fun p => by cases p <;> rfl
  apply Leaves.withStore (hin := fun a ha => by simpa using h.bytesIn a ha)
    (hout := fun a ha => by simpa using h.bytesOut a ha) (hstored := fun a => by simpa using h.stored a)
  case hregs => intro p; rw [State.readStore_advance, State.readStore_setReg, lookup_single, hp, hr]
  case hpc => exact State.fallThrough_congr (by simp) (by simp) len
  all_goals simp

/-! ## Exceptions -/

/-- The entry of an EIT and its frame (R278). -/
theorem State.eitEntry_abortPair_entered (s : State) (k : Eit) (b : Word) :
    Entered s ((s.eitEntry k b).abortPair) k b (issue := if s.issue = .paired then .aborted else s.issue) := by
  apply Leaves.withoutStore <;> simp
  · simp [Psw.enterEit, pswAfterEntry]
  · cases s.issue <;> simp

/-- An instruction whose meaning is `raise k` raises `k`. -/
theorem raises_of {i : Instr} {s : State} {k : Eit} (h : exec i s = raise k s) : Raises i s k :=
  ⟨_, h, s.eitEntry_abortPair_entered k s.pc⟩

/-- A privileged instruction in user mode (R273). -/
theorem privileged_user {s : State} (h : s.psw.pm = true) (e : Result) : privileged s e = raise .pie s := by
  simp [privileged, h]

/-- A privileged instruction in supervisor mode (R273). -/
theorem privileged_supervisor {s : State} (h : s.psw.pm = false) (e : Result) : privileged s e = e := by
  simp [privileged, h]

/-! ## Writing PSW (R22, R124, R224) -/

/-- What SETPSW may set: R224's mask of the bits it may not. -/
theorem Psw.supports_setWidth (m : BitVec 8) : Psw.supports (m.setWidth 32) = true ↔ m &&& 0x32 = 0 := by
  revert m; decide

/-- A write of PSW in the bits that it names completes, and changes nothing else. -/
theorem writeCR_psw {v : Word} (h : v &&& ~~~0x0000CDCD = 0) (s : State) :
    writeCR 0 v s = .ok { s with psw := Psw.ofWord v } := by
  have hs : Psw.supports v = true := beq_iff_eq.2 h
  simp [writeCR, hs]

/-- A write of PSW with a 1 elsewhere is refused. -/
theorem writeCR_psw_refused {v : Word} (h : v &&& ~~~0x0000CDCD ≠ 0) (s : State) :
    writeCR 0 v s = .error .fixedZeroBit := by
  have hs : Psw.supports v = false := beq_eq_false_iff_ne.2 h
  simp [writeCR, hs]

/-! ## Access (R48) -/

theorem withAccess_granted {s : State} {a : Word} {n : Nat} (h : Accessible s a n) (e : Result) :
    withAccess a n s e = e := by
  have hm : memAllowed s.psw.pm a = true := by
    cases hp : s.psw.pm <;> simp [memAllowed, h.2, hp]
  simp [withAccess, State.access, h.1, hm]

theorem withAccess_misaligned {s : State} {a : Word} {n : Nat} (h : a.toNat % n ≠ 0) (e : Result) :
    withAccess a n s e = raise .ae s := by
  simp [withAccess, State.access, h]

theorem withAccess_denied {s : State} {a : Word} {n : Nat} (ha : a.toNat % n = 0) (hp : s.psw.pm = true)
    (h : 2147483648 ≤ a.toNat) (e : Result) : withAccess a n s e = .refused .userAccessOutsideUserSpace := by
  have : ¬ a.toNat < 2147483648 := by omega
  simp [withAccess, State.access, ha, memAllowed, hp, this]

/-- What a guarded access can answer: its effect, or the entry of AE. -/
theorem withAccess_next {s t : State} {a : Word} {n : Nat} {e : Result} (h : withAccess a n s e = .next t) :
    (Accessible s a n ∧ e = .next t) ∨ t = (s.eitEntry .ae s.pc).abortPair := by
  unfold withAccess at h
  split at h
  next ha =>
    refine .inl ⟨?_, h⟩
    unfold State.access at ha
    split at ha
    · cases ha
    · split at ha
      next h0 hm =>
        refine ⟨by simpa using h0, fun hp => ?_⟩
        simpa [memAllowed, hp] using hm
      · cases ha
  · exact .inr (by simpa [raise] using h.symm)
  · cases h

/-! ## Coprocessors -/

theorem withCoproc_absent {s : State} {c : BitVec 4} (h : s.coprocAt c = none) (cmd : CoprocCommand)
    (e : Word → State → State) : withCoproc c cmd s e = .refused (.coprocessorAbsent c) := by
  simp [withCoproc, h]

theorem withCoproc_disabled {s : State} {c : BitVec 4} {cp : Coproc} (h : s.coprocAt c = some cp)
    {cmd : CoprocCommand} (hc : cmd ∈ cp.answersCDE) (e : Word → State → State) :
    withCoproc c cmd s e = raise .cde s := by
  simp [withCoproc, h, hc]

theorem withCoproc_done {s : State} {c : BitVec 4} {cp : Coproc} (h : s.coprocAt c = some cp)
    {cmd : CoprocCommand} (hc : cmd ∉ cp.answersCDE) (e : Word → State → State) :
    withCoproc c cmd s e =
      .next (e (Config.coprocValue c cp cmd) (s.setCoproc c (Config.coprocNext c cp cmd))) := by
  simp [withCoproc, h, hc]

/-- What a command can answer. -/
theorem withCoproc_next {s t : State} {c : BitVec 4} {cmd : CoprocCommand} {e : Word → State → State}
    (h : withCoproc c cmd s e = .next t) :
    (∃ v cp, t = e v (s.setCoproc c cp)) ∨ t = (s.eitEntry .cde s.pc).abortPair := by
  unfold withCoproc at h
  split at h
  · cases h
  · split at h
    · exact .inr (by simpa [raise] using h.symm)
    · exact .inl ⟨_, _, by simpa using h.symm⟩

end Sys2Proof.Machine
end

