-- ==== Sys2Proof/Laws/Execution.lean ====
section
/-!
SUPPORT. What the shared meanings, the parallel pair, the fetch and the boundary between two steps can do, each said
once.
-/

namespace Sys2Proof.Machine

/-! ## Shared meanings -/

/-- A branch completes at the target or at the fall-through address, and changes the pc alone. -/
theorem branchIf_leaves (taken : Bool) (target len : Word) (s : State) :
    ∃ t, branchIf taken target len s = .next t ∧ Leaves s t (if taken then target else s.fallThrough len) := by
  cases taken
  · exact ⟨_, rfl, s.advance_leaves len⟩
  · exact ⟨_, rfl, s.goto_leaves target⟩

/-- A call that is taken goes to the target with the link in R14. -/
theorem branchLinkIf_taken (target len : Word) (s : State) :
    ∃ t, branchLinkIf true target len s = .next t ∧ Leaves s t target (regs := [(s.physReg 14, s.wordBase + 4)]) :=
  ⟨_, rfl, s.link_goto_leaves target⟩

/-- A call that is not taken falls through, R14 unchanged. -/
theorem branchLinkIf_not_taken (target len : Word) (s : State) :
    ∃ t, branchLinkIf false target len s = .next t ∧ Leaves s t (s.fallThrough len) :=
  ⟨_, rfl, s.advance_leaves len⟩

/-- A load whose access may be made writes its destination and nothing else. -/
theorem loadInto_granted {dest : Reg} {ea : Word} {n : Nat} {v len : Word} {s : State} (h : Accessible s ea n) :
    ∃ t, loadInto dest ea n v len s = .next t ∧ Leaves s t (s.fallThrough len) (regs := [(s.physReg dest, v)]) :=
  ⟨_, withAccess_granted h _, s.result_leaves dest v len⟩

/-- An update form completes only where the data register is not the base register. -/
theorem withUpdate_next {data base : Reg} {t u : State} : withUpdate data base t = .next u ↔ data ≠ base ∧ u = t := by
  unfold withUpdate
  split
  · rename_i h; simp [h]
  · rename_i h; simp [h, eq_comm]

/-- Division by zero changes nothing but the pc (R160). -/
theorem divideBy_zero {dest src : Reg} {s : State} (h : s.getReg src = 0) (exact : Int) :
    ∃ t, divideBy dest src exact s = .next t ∧ Leaves s t (s.fallThrough 4) := by
  refine ⟨s.advance 4, ?_, s.advance_leaves 4⟩
  simp [divideBy, h]

/-- Division by another number writes the result to `dest`. -/
theorem divideBy_nonzero {dest src : Reg} {s : State} (h : s.getReg src ≠ 0) (exact : Int) :
    ∃ t, divideBy dest src exact s = .next t ∧
      Leaves s t (s.fallThrough 4) (regs := [(s.physReg dest, BitVec.ofInt 32 exact)]) := by
  refine ⟨s.result dest (BitVec.ofInt 32 exact) 4, ?_, s.result_leaves dest _ 4⟩
  rw [divideBy, if_neg h]

/-! ## The parallel pair -/

/-- The register cells that the merge leaves alone. -/
theorem readStore_mergeRegs_out (other : List Store) (fromB : State) (regs : List Store) (t : State) (p : Store)
    (h : p ∉ regs) : (mergeRegs other fromB regs t).readStore p = t.readStore p := by
  induction regs generalizing t with
  | nil => rfl
  | cons q regs ih =>
    simp only [List.mem_cons, not_or] at h
    unfold mergeRegs
    split
    · rw [ih _ h.2, State.readStore_writeStore, if_neg h.1, State.readStore_drawn]
    · rw [ih _ h.2, State.readStore_writeStore, if_neg h.1]

/-- The register cells that the merge takes from B. -/
theorem readStore_mergeRegs_in (other : List Store) (fromB : State) (regs : List Store) (t : State) (p : Store)
    (hp : p ∈ regs) (ho : p ∉ other) : (mergeRegs other fromB regs t).readStore p = fromB.readStore p := by
  induction regs generalizing t with
  | nil => cases hp
  | cons q regs ih =>
    unfold mergeRegs
    by_cases hr : p ∈ regs
    · split <;> exact ih _ hr
    · have hq : p = q := by simpa [hr] using hp
      subst hq
      rw [if_neg ho, readStore_mergeRegs_out _ _ _ _ _ hr, State.readStore_writeStore, if_pos rfl]

/-- What `mergeRegs` leaves besides the registers. -/
theorem mergeRegs_frame (other : List Store) (fromB : State) (regs : List Store) (t : State) :
    (mergeRegs other fromB regs t).pc = t.pc ∧ (mergeRegs other fromB regs t).psw = t.psw ∧
      (mergeRegs other fromB regs t).mem = t.mem ∧ (mergeRegs other fromB regs t).stored = t.stored ∧
      (mergeRegs other fromB regs t).lock = t.lock ∧ (mergeRegs other fromB regs t).evb = t.evb ∧
      (mergeRegs other fromB regs t).evbWritten = t.evbWritten ∧ (mergeRegs other fromB regs t).bpc = t.bpc ∧
      (mergeRegs other fromB regs t).acc0 = t.acc0 ∧ (mergeRegs other fromB regs t).acc1 = t.acc1 ∧
      (mergeRegs other fromB regs t).coproc = t.coproc ∧ (mergeRegs other fromB regs t).irq = t.irq ∧
      (mergeRegs other fromB regs t).issue = t.issue := by
  induction regs generalizing t with
  | nil => exact ⟨rfl, rfl, rfl, rfl, rfl, rfl, rfl, rfl, rfl, rfl, rfl, rfl, rfl⟩
  | cons q regs ih =>
    unfold mergeRegs
    split
    · have := ih ((t.drawn 1).writeStore q t.freeWord)
      cases q <;> exact this
    · have := ih (t.writeStore q (fromB.readStore q))
      cases q <;> exact this

/-- Everything a pair can do when it completes: A has raised an exception or has cancelled B, or both have completed and
their writes are merged. -/
theorem runPair_next {a b : Instr} {s t : State} (h : runPair a b s = .next t) :
    ∃ ta, exec a { s with issue := .paired } = .next ta ∧
      (((ta.issue = .aborted ∨ ta.issue = .cancelsPartner) ∧ t = settle ta) ∨
        (ta.issue ≠ .aborted ∧ ta.issue ≠ .cancelsPartner ∧
          ∃ tb, exec b { s with issue := .paired } = .next tb ∧ t = settle (mergePair a b s ta tb))) := by
  unfold runPair at h
  simp only at h
  split at h
  · rename_i ta ha
    refine ⟨ta, ha, ?_⟩
    split at h
    · rename_i hi
      exact .inl ⟨.inl hi, by cases h; rfl⟩
    · rename_i hi
      exact .inl ⟨.inr hi, by cases h; rfl⟩
    · rename_i h1 h2
      split at h
      · rename_i tb hb
        exact .inr ⟨h1, h2, tb, hb, by cases h; rfl⟩
      · cases h
      · cases h
  · cases h
  · cases h

/-- Both members complete, neither cancels nor aborts: their writes are merged. -/
theorem runPair_merges {a b : Instr} {s ta tb : State} (ha : exec a { s with issue := .paired } = .next ta)
    (hi : ta.issue = .paired) (hb : exec b { s with issue := .paired } = .next tb) :
    runPair a b s = .next (settle (mergePair a b s ta tb)) := by
  simp [runPair, ha, hi, hb]

/-- A raises an exception or cancels B: B is not executed. -/
theorem runPair_alone {a : Instr} {s ta : State} (b : Instr) (ha : exec a { s with issue := .paired } = .next ta)
    (hi : ta.issue = .aborted ∨ ta.issue = .cancelsPartner) : runPair a b s = .next (settle ta) := by
  rcases hi with hi | hi <;> simp [runPair, ha, hi]

/-! ## The fetch -/

/-- The address of the word that holds the instruction, as a number. -/
theorem State.wordBase_toNat (s : State) : s.wordBase.toNat = s.wordStart := by
  have e : s.wordBase = s.pc >>> 2 <<< 2 := by
    unfold State.wordBase
    apply BitVec.eq_of_getLsbD_eq
    intro i hi
    have hc : (0xFFFFFFFC#32).getLsbD i = !decide (i < 2) := by
      have : ∀ j : Fin 32, (0xFFFFFFFC#32).getLsbD j.val = !decide (j.val < 2) := by decide
      exact this ⟨i, hi⟩
    have : (0xFFFFFFFC : Word) = 0xFFFFFFFC#32 := rfl
    rw [this, BitVec.getLsbD_and, hc]
    by_cases h2 : i < 2
    · simp [h2, hi]
    · have : 2 + (i - 2) = i := by omega
      simp [h2, hi, this]
  rw [e]
  have := s.pc.isLt
  simp only [BitVec.toNat_shiftLeft, BitVec.toNat_ushiftRight, Nat.shiftLeft_eq, Nat.shiftRight_eq_div_pow,
    State.wordStart]
  omega

/-- A byte of that word has no wrapped address. -/
theorem State.wordStart_fits (s : State) : s.wordStart + 3 < 4294967296 := by
  have := s.pc.isLt
  unfold State.wordStart
  omega

/-- The word at the pc, by its bytes. -/
theorem State.codeByte_eq (s : State) (k : Nat) (hk : k < 4) :
    s.codeByte k = s.mem.readByte (s.wordBase + BitVec.ofNat 32 k).toNat := by
  have := s.wordStart_fits
  rw [toNat_add_ofNat (by rw [s.wordBase_toNat]; omega), s.wordBase_toNat, State.codeByte]

/-- `storedAny` looks at exactly the `n` bytes at `a`. -/
theorem State.storedAny_iff (s : State) (a : Word) (n : Nat) :
    s.storedAny a n = true ↔ ∃ x ∈ s.stored, a.toNat ≤ x ∧ x < a.toNat + n := by
  induction n with
  | zero =>
    simp only [State.storedAny, Bool.false_eq_true, false_iff]
    rintro ⟨x, _, h⟩
    omega
  | succ n ih =>
    simp only [State.storedAny, Bool.or_eq_true, ih, List.contains_iff_mem]
    constructor
    · rintro (⟨x, hx, h⟩ | h)
      · exact ⟨x, hx, by omega⟩
      · exact ⟨_, h, by omega⟩
    · rintro ⟨x, hx, h⟩
      by_cases e : x = a.toNat + n
      · exact .inr (e ▸ hx)
      · exact .inl ⟨x, hx, by omega⟩

theorem State.fetchable_allowed {s : State} {k n : Nat} (h : s.fetchable k n) :
    memAllowed s.psw.pm s.wordBase = true := by
  cases hu : s.psw.pm <;> simp [memAllowed]
  rw [s.wordBase_toNat]
  exact h.1 hu

/-- A fetch that may be made at a word-aligned pc. -/
theorem State.fetch_at_word {s : State}
    (h : s.fetchable 0 (parcelAtWord (s.mem.readWord s.wordBase)).size) (hp : s.pc.getLsbD 1 = false) :
    s.fetch = .ok (parcelAtWord (s.mem.readWord s.wordBase)) := by
  have hs : s.storedAny s.wordBase (parcelAtWord (s.mem.readWord s.wordBase)).size = false := by
    rw [Bool.eq_false_iff, ne_eq, State.storedAny_iff]
    rintro ⟨x, hx, hr⟩
    rw [s.wordBase_toNat] at hr
    exact h.2 x hx (by omega)
  simp only [State.fetch, State.fetchable_allowed h, hp, hs]
  rfl

/-- A fetch that may be made at the lower half of a word. -/
theorem State.fetch_at_lower_half {s : State} (h : s.fetchable 2 2) (hp : s.pc.getLsbD 1 = true) :
    s.fetch = parcelAtLowerHalf (s.mem.readWord s.wordBase) := by
  have hs : s.storedAny (s.wordBase + 2) 2 = false := by
    rw [Bool.eq_false_iff, ne_eq, State.storedAny_iff]
    have := s.wordStart_fits
    have e : (s.wordBase + 2).toNat = s.wordStart + 2 := by
      rw [← s.wordBase_toNat] at this ⊢
      exact toNat_add_ofNat (k := 2) (by omega)
    rintro ⟨x, hx, hr⟩
    rw [e] at hr
    exact h.2 x hx hr
  simp only [State.fetch, State.fetchable_allowed h, hp, hs]
  rfl

/-! ## The boundary between two steps -/

/-- Everything a step can do. -/
theorem step_cases (s : State) :
    (s.offer.reset = true ∧ step s = .next s.passBoundary.resetEvent) ∨
      (s.offer.reset = false ∧ ∃ k, s.acceptedInterrupt = some k ∧
        step s = .next (s.passBoundary.eitEntry k s.pc)) ∨
      (s.quiet ∧ step s = execNext s.passBoundary) := by
  cases hr : s.offer.reset
  · cases hk : s.acceptedInterrupt with
    | none => exact .inr (.inr ⟨⟨hr, hk⟩, by simp [step, stepCpu, hr, hk]⟩)
    | some k =>
      refine .inr (.inl ⟨rfl, k, rfl, ?_⟩)
      simp only [step, stepCpu, hr, hk]
      rfl
  · exact .inl ⟨rfl, by simp [step, stepCpu, hr]⟩

/-- A step at which nothing interrupts fetches and executes. -/
theorem step_quiet {s : State} (h : s.quiet) : step s = execNext s.passBoundary := by
  simp [step, stepCpu, h.1, h.2]

end Sys2Proof.Machine
end

