-- ==== Sys2Proof/Laws/PerInstr.lean ====
section
/-!
SUPPORT. Statements about every instruction, made per constructor.
-/

namespace Sys2Proof.Laws

open Sys2Proof.Machine

/-- The bit that tells a 32-bit instruction from a 16-bit one: the first bit of its code (R65). -/
def leadingBit : Code → Bool
  | .half h => msb h
  | .word w => msb (upperHalf w)

@[simp] theorem leadingBit_half (a b c d : BitVec 4) : leadingBit (.half (pack16 a b c d)) = a.getLsbD 3 := by
  simp [leadingBit, msb_eq_opField]

@[simp] theorem leadingBit_halfImm8 (a b : BitVec 4) (k : BitVec 8) :
    leadingBit (.half (pack16Imm8 a b k)) = a.getLsbD 3 := by
  simp [leadingBit, msb_eq_opField]

@[simp] theorem leadingBit_halfImm5 (a b : BitVec 4) (j : BitVec 3) (k : BitVec 5) :
    leadingBit (.half (pack16Imm5 a b j k)) = a.getLsbD 3 := by
  simp [leadingBit, msb_eq_opField]

@[simp] theorem leadingBit_word (a b c d : BitVec 4) (k : Half) :
    leadingBit (.word (pack32 a b c d k)) = a.getLsbD 3 := by
  simp [leadingBit, msb_eq_opField]

@[simp] theorem leadingBit_wordImm24 (a b : BitVec 4) (k : BitVec 24) :
    leadingBit (.word (pack32Imm24 a b k)) = a.getLsbD 3 := by
  simp [leadingBit, msb_eq_opField]

@[simp] theorem leadingBit_coproc (r1 op2 r2 cpid : BitVec 4) (inst : BitVec 8) :
    leadingBit (.word (packCoproc r1 op2 r2 cpid inst)) = true := by
  simp [leadingBit, msb_eq_opField]

/-- The length of an instruction, its first bit and its category say the same (R60, R65, R74): the first bit is 1 and the
length 4 bytes exactly for the instructions that are never paired. -/
def Length.Statement (i : Instr) : Prop :=
  i.size = (if category i = .wide then 4 else 2) ∧ leadingBit (encode i) = decide (category i = .wide)

theorem Length.subv (dest src : Reg) : Length.Statement (.subv dest src) := ⟨rfl, leadingBit_half _ _ _ _⟩

theorem Length.subx (dest src : Reg) : Length.Statement (.subx dest src) := ⟨rfl, leadingBit_half _ _ _ _⟩

theorem Length.sub (dest src : Reg) : Length.Statement (.sub dest src) := ⟨rfl, leadingBit_half _ _ _ _⟩

theorem Length.neg (dest src : Reg) : Length.Statement (.neg dest src) := ⟨rfl, leadingBit_half _ _ _ _⟩

theorem Length.cmp (src1 src2 : Reg) : Length.Statement (.cmp src1 src2) := ⟨rfl, leadingBit_half _ _ _ _⟩

theorem Length.cmpu (src1 src2 : Reg) : Length.Statement (.cmpu src1 src2) := ⟨rfl, leadingBit_half _ _ _ _⟩

theorem Length.cmpeq (src1 src2 : Reg) : Length.Statement (.cmpeq src1 src2) := ⟨rfl, leadingBit_half _ _ _ _⟩

theorem Length.cmpz (src : Reg) : Length.Statement (.cmpz src) := ⟨rfl, leadingBit_half _ _ _ _⟩

theorem Length.pcmpbz (src : Reg) : Length.Statement (.pcmpbz src) := ⟨rfl, leadingBit_half _ _ _ _⟩

theorem Length.addv (dest src : Reg) : Length.Statement (.addv dest src) := ⟨rfl, leadingBit_half _ _ _ _⟩

theorem Length.addx (dest src : Reg) : Length.Statement (.addx dest src) := ⟨rfl, leadingBit_half _ _ _ _⟩

theorem Length.add (dest src : Reg) : Length.Statement (.add dest src) := ⟨rfl, leadingBit_half _ _ _ _⟩

theorem Length.not (dest src : Reg) : Length.Statement (.not dest src) := ⟨rfl, leadingBit_half _ _ _ _⟩

theorem Length.and (dest src : Reg) : Length.Statement (.and dest src) := ⟨rfl, leadingBit_half _ _ _ _⟩

theorem Length.xor (dest src : Reg) : Length.Statement (.xor dest src) := ⟨rfl, leadingBit_half _ _ _ _⟩

theorem Length.or (dest src : Reg) : Length.Statement (.or dest src) := ⟨rfl, leadingBit_half _ _ _ _⟩

theorem Length.btst (bitpos : BitVec 3) (src : Reg) : Length.Statement (.btst bitpos src) :=
  ⟨rfl, leadingBit_half _ _ _ _⟩

theorem Length.srl (dest src : Reg) : Length.Statement (.srl dest src) := ⟨rfl, leadingBit_half _ _ _ _⟩

theorem Length.sra (dest src : Reg) : Length.Statement (.sra dest src) := ⟨rfl, leadingBit_half _ _ _ _⟩

theorem Length.sll (dest src : Reg) : Length.Statement (.sll dest src) := ⟨rfl, leadingBit_half _ _ _ _⟩

theorem Length.mul (dest src : Reg) : Length.Statement (.mul dest src) := ⟨rfl, leadingBit_half _ _ _ _⟩

theorem Length.mv (dest src : Reg) : Length.Statement (.mv dest src) := ⟨rfl, leadingBit_half _ _ _ _⟩

theorem Length.mvfc (dest : Reg) (cr : BitVec 4) : Length.Statement (.mvfc dest cr) := ⟨rfl, leadingBit_half _ _ _ _⟩

theorem Length.mvtc (cr : BitVec 4) (src : Reg) : Length.Statement (.mvtc cr src) := ⟨rfl, leadingBit_half _ _ _ _⟩

theorem Length.jc (src : Reg) : Length.Statement (.jc src) := ⟨rfl, leadingBit_half _ _ _ _⟩

theorem Length.jnc (src : Reg) : Length.Statement (.jnc src) := ⟨rfl, leadingBit_half _ _ _ _⟩

theorem Length.jl (src : Reg) : Length.Statement (.jl src) := ⟨rfl, leadingBit_half _ _ _ _⟩

theorem Length.jmp (src : Reg) : Length.Statement (.jmp src) := ⟨rfl, leadingBit_half _ _ _ _⟩

theorem Length.rte : Length.Statement .rte := ⟨rfl, leadingBit_half _ _ _ _⟩

theorem Length.trap (imm4 : BitVec 4) : Length.Statement (.trap imm4) := ⟨rfl, leadingBit_half _ _ _ _⟩

theorem Length.stb (src1 src2 : Reg) : Length.Statement (.stb src1 src2) := ⟨rfl, leadingBit_half _ _ _ _⟩

theorem Length.stbPost (src1 src2 : Reg) : Length.Statement (.stbPost src1 src2) := ⟨rfl, leadingBit_half _ _ _ _⟩

theorem Length.sth (src1 src2 : Reg) : Length.Statement (.sth src1 src2) := ⟨rfl, leadingBit_half _ _ _ _⟩

theorem Length.sthPost (src1 src2 : Reg) : Length.Statement (.sthPost src1 src2) := ⟨rfl, leadingBit_half _ _ _ _⟩

theorem Length.st (src1 src2 : Reg) : Length.Statement (.st src1 src2) := ⟨rfl, leadingBit_half _ _ _ _⟩

theorem Length.unlock (src1 src2 : Reg) : Length.Statement (.unlock src1 src2) := ⟨rfl, leadingBit_half _ _ _ _⟩

theorem Length.stPreInc (src1 src2 : Reg) : Length.Statement (.stPreInc src1 src2) := ⟨rfl, leadingBit_half _ _ _ _⟩

theorem Length.stPreDec (src1 src2 : Reg) : Length.Statement (.stPreDec src1 src2) := ⟨rfl, leadingBit_half _ _ _ _⟩

theorem Length.ldb (dest src : Reg) : Length.Statement (.ldb dest src) := ⟨rfl, leadingBit_half _ _ _ _⟩

theorem Length.ldub (dest src : Reg) : Length.Statement (.ldub dest src) := ⟨rfl, leadingBit_half _ _ _ _⟩

theorem Length.ldh (dest src : Reg) : Length.Statement (.ldh dest src) := ⟨rfl, leadingBit_half _ _ _ _⟩

theorem Length.lduh (dest src : Reg) : Length.Statement (.lduh dest src) := ⟨rfl, leadingBit_half _ _ _ _⟩

theorem Length.ld (dest src : Reg) : Length.Statement (.ld dest src) := ⟨rfl, leadingBit_half _ _ _ _⟩

theorem Length.lock (dest src : Reg) : Length.Statement (.lock dest src) := ⟨rfl, leadingBit_half _ _ _ _⟩

theorem Length.ldPost (dest src : Reg) : Length.Statement (.ldPost dest src) := ⟨rfl, leadingBit_half _ _ _ _⟩

theorem Length.mulhi (src1 src2 : Reg) (a : Acc) : Length.Statement (.mulhi src1 src2 a) :=
  ⟨rfl, leadingBit_half _ _ _ _⟩

theorem Length.mullo (src1 src2 : Reg) (a : Acc) : Length.Statement (.mullo src1 src2 a) :=
  ⟨rfl, leadingBit_half _ _ _ _⟩

theorem Length.mulwhi (src1 src2 : Reg) : Length.Statement (.mulwhi src1 src2) := ⟨rfl, leadingBit_half _ _ _ _⟩

theorem Length.mulwlo (src1 src2 : Reg) : Length.Statement (.mulwlo src1 src2) := ⟨rfl, leadingBit_half _ _ _ _⟩

theorem Length.machi (src1 src2 : Reg) (a : Acc) : Length.Statement (.machi src1 src2 a) :=
  ⟨rfl, leadingBit_half _ _ _ _⟩

theorem Length.maclo (src1 src2 : Reg) (a : Acc) : Length.Statement (.maclo src1 src2 a) :=
  ⟨rfl, leadingBit_half _ _ _ _⟩

theorem Length.macwhi (src1 src2 : Reg) : Length.Statement (.macwhi src1 src2) := ⟨rfl, leadingBit_half _ _ _ _⟩

theorem Length.macwlo (src1 src2 : Reg) : Length.Statement (.macwlo src1 src2) := ⟨rfl, leadingBit_half _ _ _ _⟩

theorem Length.addi (dest : Reg) (imm8 : BitVec 8) : Length.Statement (.addi dest imm8) :=
  ⟨rfl, leadingBit_halfImm8 _ _ _⟩

theorem Length.srli (dest : Reg) (imm5 : BitVec 5) : Length.Statement (.srli dest imm5) :=
  ⟨rfl, leadingBit_halfImm5 _ _ _ _⟩

theorem Length.srai (dest : Reg) (imm5 : BitVec 5) : Length.Statement (.srai dest imm5) :=
  ⟨rfl, leadingBit_halfImm5 _ _ _ _⟩

theorem Length.slli (dest : Reg) (imm5 : BitVec 5) : Length.Statement (.slli dest imm5) :=
  ⟨rfl, leadingBit_halfImm5 _ _ _ _⟩

theorem Length.mvtachi (src : Reg) (dd : Acc) : Length.Statement (.mvtachi src dd) := ⟨rfl, leadingBit_half _ _ _ _⟩

theorem Length.mvtaclo (src : Reg) (dd : Acc) : Length.Statement (.mvtaclo src dd) := ⟨rfl, leadingBit_half _ _ _ _⟩

theorem Length.rach (dd ss : Acc) (imm1 : Nat) : Length.Statement (.rach dd ss imm1) := ⟨rfl, leadingBit_half _ _ _ _⟩

theorem Length.rac (dd ss : Acc) (imm1 : Nat) : Length.Statement (.rac dd ss imm1) := ⟨rfl, leadingBit_half _ _ _ _⟩

theorem Length.mulwu1 (src1 src2 : Reg) : Length.Statement (.mulwu1 src1 src2) := ⟨rfl, leadingBit_half _ _ _ _⟩

theorem Length.macwu1 (src1 src2 : Reg) : Length.Statement (.macwu1 src1 src2) := ⟨rfl, leadingBit_half _ _ _ _⟩

theorem Length.maclh1 (src1 src2 : Reg) : Length.Statement (.maclh1 src1 src2) := ⟨rfl, leadingBit_half _ _ _ _⟩

theorem Length.msblo (src1 src2 : Reg) : Length.Statement (.msblo src1 src2) := ⟨rfl, leadingBit_half _ _ _ _⟩

theorem Length.sadd : Length.Statement .sadd := ⟨rfl, leadingBit_half _ _ _ _⟩

theorem Length.mvfachi (dest : Reg) (ss : Acc) : Length.Statement (.mvfachi dest ss) := ⟨rfl, leadingBit_half _ _ _ _⟩

theorem Length.mvfaclo (dest : Reg) (ss : Acc) : Length.Statement (.mvfaclo dest ss) := ⟨rfl, leadingBit_half _ _ _ _⟩

theorem Length.mvfacmi (dest : Reg) (ss : Acc) : Length.Statement (.mvfacmi dest ss) := ⟨rfl, leadingBit_half _ _ _ _⟩

theorem Length.ldi8 (dest : Reg) (imm8 : BitVec 8) : Length.Statement (.ldi8 dest imm8) :=
  ⟨rfl, leadingBit_halfImm8 _ _ _⟩

theorem Length.nop : Length.Statement .nop := ⟨rfl, leadingBit_half _ _ _ _⟩

theorem Length.setpsw (imm8 : BitVec 8) : Length.Statement (.setpsw imm8) := ⟨rfl, leadingBit_halfImm8 _ _ _⟩

theorem Length.clrpsw (imm8 : BitVec 8) : Length.Statement (.clrpsw imm8) := ⟨rfl, leadingBit_halfImm8 _ _ _⟩

theorem Length.sc : Length.Statement .sc := ⟨rfl, leadingBit_half _ _ _ _⟩

theorem Length.snc : Length.Statement .snc := ⟨rfl, leadingBit_half _ _ _ _⟩

theorem Length.bcl8 (pcdisp8 : BitVec 8) : Length.Statement (.bcl8 pcdisp8) := ⟨rfl, leadingBit_halfImm8 _ _ _⟩

theorem Length.bncl8 (pcdisp8 : BitVec 8) : Length.Statement (.bncl8 pcdisp8) := ⟨rfl, leadingBit_halfImm8 _ _ _⟩

theorem Length.bc8 (pcdisp8 : BitVec 8) : Length.Statement (.bc8 pcdisp8) := ⟨rfl, leadingBit_halfImm8 _ _ _⟩

theorem Length.bnc8 (pcdisp8 : BitVec 8) : Length.Statement (.bnc8 pcdisp8) := ⟨rfl, leadingBit_halfImm8 _ _ _⟩

theorem Length.bl8 (pcdisp8 : BitVec 8) : Length.Statement (.bl8 pcdisp8) := ⟨rfl, leadingBit_halfImm8 _ _ _⟩

theorem Length.bra8 (pcdisp8 : BitVec 8) : Length.Statement (.bra8 pcdisp8) := ⟨rfl, leadingBit_halfImm8 _ _ _⟩

theorem Length.cmpi (src : Reg) (imm16 : Half) : Length.Statement (.cmpi src imm16) :=
  ⟨rfl, leadingBit_word _ _ _ _ _⟩

theorem Length.cmpui (src : Reg) (imm16 : Half) : Length.Statement (.cmpui src imm16) :=
  ⟨rfl, leadingBit_word _ _ _ _ _⟩

theorem Length.satb (dest src : Reg) : Length.Statement (.satb dest src) := ⟨rfl, leadingBit_word _ _ _ _ _⟩

theorem Length.sath (dest src : Reg) : Length.Statement (.sath dest src) := ⟨rfl, leadingBit_word _ _ _ _ _⟩

theorem Length.addv3 (dest src : Reg) (imm16 : Half) : Length.Statement (.addv3 dest src imm16) :=
  ⟨rfl, leadingBit_word _ _ _ _ _⟩

theorem Length.add3 (dest src : Reg) (imm16 : Half) : Length.Statement (.add3 dest src imm16) :=
  ⟨rfl, leadingBit_word _ _ _ _ _⟩

theorem Length.and3 (dest src : Reg) (imm16 : Half) : Length.Statement (.and3 dest src imm16) :=
  ⟨rfl, leadingBit_word _ _ _ _ _⟩

theorem Length.xor3 (dest src : Reg) (imm16 : Half) : Length.Statement (.xor3 dest src imm16) :=
  ⟨rfl, leadingBit_word _ _ _ _ _⟩

theorem Length.or3 (dest src : Reg) (imm16 : Half) : Length.Statement (.or3 dest src imm16) :=
  ⟨rfl, leadingBit_word _ _ _ _ _⟩

theorem Length.div (dest src : Reg) : Length.Statement (.div dest src) := ⟨rfl, leadingBit_word _ _ _ _ _⟩

theorem Length.divb (dest src : Reg) : Length.Statement (.divb dest src) := ⟨rfl, leadingBit_word _ _ _ _ _⟩

theorem Length.divh (dest src : Reg) : Length.Statement (.divh dest src) := ⟨rfl, leadingBit_word _ _ _ _ _⟩

theorem Length.divu (dest src : Reg) : Length.Statement (.divu dest src) := ⟨rfl, leadingBit_word _ _ _ _ _⟩

theorem Length.divub (dest src : Reg) : Length.Statement (.divub dest src) := ⟨rfl, leadingBit_word _ _ _ _ _⟩

theorem Length.divuh (dest src : Reg) : Length.Statement (.divuh dest src) := ⟨rfl, leadingBit_word _ _ _ _ _⟩

theorem Length.rem (dest src : Reg) : Length.Statement (.rem dest src) := ⟨rfl, leadingBit_word _ _ _ _ _⟩

theorem Length.remb (dest src : Reg) : Length.Statement (.remb dest src) := ⟨rfl, leadingBit_word _ _ _ _ _⟩

theorem Length.remh (dest src : Reg) : Length.Statement (.remh dest src) := ⟨rfl, leadingBit_word _ _ _ _ _⟩

theorem Length.remu (dest src : Reg) : Length.Statement (.remu dest src) := ⟨rfl, leadingBit_word _ _ _ _ _⟩

theorem Length.remub (dest src : Reg) : Length.Statement (.remub dest src) := ⟨rfl, leadingBit_word _ _ _ _ _⟩

theorem Length.remuh (dest src : Reg) : Length.Statement (.remuh dest src) := ⟨rfl, leadingBit_word _ _ _ _ _⟩

theorem Length.srl3 (dest src : Reg) (imm16 : Half) : Length.Statement (.srl3 dest src imm16) :=
  ⟨rfl, leadingBit_word _ _ _ _ _⟩

theorem Length.sra3 (dest src : Reg) (imm16 : Half) : Length.Statement (.sra3 dest src imm16) :=
  ⟨rfl, leadingBit_word _ _ _ _ _⟩

theorem Length.sll3 (dest src : Reg) (imm16 : Half) : Length.Statement (.sll3 dest src imm16) :=
  ⟨rfl, leadingBit_word _ _ _ _ _⟩

theorem Length.ldi16 (dest : Reg) (imm16 : Half) : Length.Statement (.ldi16 dest imm16) :=
  ⟨rfl, leadingBit_word _ _ _ _ _⟩

theorem Length.stbDisp (src1 src2 : Reg) (disp16 : Half) : Length.Statement (.stbDisp src1 src2 disp16) :=
  ⟨rfl, leadingBit_word _ _ _ _ _⟩

theorem Length.sthDisp (src1 src2 : Reg) (disp16 : Half) : Length.Statement (.sthDisp src1 src2 disp16) :=
  ⟨rfl, leadingBit_word _ _ _ _ _⟩

theorem Length.stDisp (src1 src2 : Reg) (disp16 : Half) : Length.Statement (.stDisp src1 src2 disp16) :=
  ⟨rfl, leadingBit_word _ _ _ _ _⟩

theorem Length.bset (bitpos : BitVec 3) (src : Reg) (disp16 : Half) : Length.Statement (.bset bitpos src disp16) :=
  ⟨rfl, leadingBit_word _ _ _ _ _⟩

theorem Length.bclr (bitpos : BitVec 3) (src : Reg) (disp16 : Half) : Length.Statement (.bclr bitpos src disp16) :=
  ⟨rfl, leadingBit_word _ _ _ _ _⟩

theorem Length.ldbDisp (dest src : Reg) (disp16 : Half) : Length.Statement (.ldbDisp dest src disp16) :=
  ⟨rfl, leadingBit_word _ _ _ _ _⟩

theorem Length.ldubDisp (dest src : Reg) (disp16 : Half) : Length.Statement (.ldubDisp dest src disp16) :=
  ⟨rfl, leadingBit_word _ _ _ _ _⟩

theorem Length.ldhDisp (dest src : Reg) (disp16 : Half) : Length.Statement (.ldhDisp dest src disp16) :=
  ⟨rfl, leadingBit_word _ _ _ _ _⟩

theorem Length.lduhDisp (dest src : Reg) (disp16 : Half) : Length.Statement (.lduhDisp dest src disp16) :=
  ⟨rfl, leadingBit_word _ _ _ _ _⟩

theorem Length.ldDisp (dest src : Reg) (disp16 : Half) : Length.Statement (.ldDisp dest src disp16) :=
  ⟨rfl, leadingBit_word _ _ _ _ _⟩

theorem Length.beq (src1 src2 : Reg) (pcdisp16 : Half) : Length.Statement (.beq src1 src2 pcdisp16) :=
  ⟨rfl, leadingBit_word _ _ _ _ _⟩

theorem Length.bne (src1 src2 : Reg) (pcdisp16 : Half) : Length.Statement (.bne src1 src2 pcdisp16) :=
  ⟨rfl, leadingBit_word _ _ _ _ _⟩

theorem Length.beqz (src : Reg) (pcdisp16 : Half) : Length.Statement (.beqz src pcdisp16) :=
  ⟨rfl, leadingBit_word _ _ _ _ _⟩

theorem Length.bnez (src : Reg) (pcdisp16 : Half) : Length.Statement (.bnez src pcdisp16) :=
  ⟨rfl, leadingBit_word _ _ _ _ _⟩

theorem Length.bltz (src : Reg) (pcdisp16 : Half) : Length.Statement (.bltz src pcdisp16) :=
  ⟨rfl, leadingBit_word _ _ _ _ _⟩

theorem Length.bgez (src : Reg) (pcdisp16 : Half) : Length.Statement (.bgez src pcdisp16) :=
  ⟨rfl, leadingBit_word _ _ _ _ _⟩

theorem Length.blez (src : Reg) (pcdisp16 : Half) : Length.Statement (.blez src pcdisp16) :=
  ⟨rfl, leadingBit_word _ _ _ _ _⟩

theorem Length.bgtz (src : Reg) (pcdisp16 : Half) : Length.Statement (.bgtz src pcdisp16) :=
  ⟨rfl, leadingBit_word _ _ _ _ _⟩

theorem Length.mvfcp (dest : Reg) (cprSrc cpid : BitVec 4) (inst : BitVec 8) : Length.Statement (.mvfcp dest cprSrc cpid inst) :=
  ⟨rfl, leadingBit_coproc _ _ _ _ _⟩

theorem Length.mvtcp (src : Reg) (cprDest cpid : BitVec 4) (inst : BitVec 8) : Length.Statement (.mvtcp src cprDest cpid inst) :=
  ⟨rfl, leadingBit_coproc _ _ _ _ _⟩

theorem Length.opecp (cprDest cprSrc cpid : BitVec 4) (inst : BitVec 8) : Length.Statement (.opecp cprDest cprSrc cpid inst) :=
  ⟨rfl, leadingBit_coproc _ _ _ _ _⟩

theorem Length.seth (dest : Reg) (imm16 : Half) : Length.Statement (.seth dest imm16) :=
  ⟨rfl, leadingBit_word _ _ _ _ _⟩

theorem Length.ld24 (dest : Reg) (imm24 : BitVec 24) : Length.Statement (.ld24 dest imm24) :=
  ⟨rfl, leadingBit_wordImm24 _ _ _⟩

theorem Length.bcl24 (pcdisp24 : BitVec 24) : Length.Statement (.bcl24 pcdisp24) := ⟨rfl, leadingBit_wordImm24 _ _ _⟩

theorem Length.bncl24 (pcdisp24 : BitVec 24) : Length.Statement (.bncl24 pcdisp24) :=
  ⟨rfl, leadingBit_wordImm24 _ _ _⟩

theorem Length.bc24 (pcdisp24 : BitVec 24) : Length.Statement (.bc24 pcdisp24) := ⟨rfl, leadingBit_wordImm24 _ _ _⟩

theorem Length.bnc24 (pcdisp24 : BitVec 24) : Length.Statement (.bnc24 pcdisp24) := ⟨rfl, leadingBit_wordImm24 _ _ _⟩

theorem Length.bl24 (pcdisp24 : BitVec 24) : Length.Statement (.bl24 pcdisp24) := ⟨rfl, leadingBit_wordImm24 _ _ _⟩

theorem Length.bra24 (pcdisp24 : BitVec 24) : Length.Statement (.bra24 pcdisp24) := ⟨rfl, leadingBit_wordImm24 _ _ _⟩

end Sys2Proof.Laws
end

