-- ==== Sys2Proof/Tests/Slice0.lean ====
section
/-!
SUPPORT. Tests: ill-formed terms, the decoding of a word written out for every constructor, single steps with the results
that spec/95_test_vectors.md gives, and for every statement with hypotheses states and operands that meet them.
-/

namespace Sys2Proof.Tests

open Sys2Proof Sys2Proof.Machine

/-! ## Well-formedness: the written immediate of RAC and RACH is 1 or 2 (R248, R249) -/

theorem test_rac_zero_ill_formed : (Instr.rac .a0 .a1 0).wellFormed = false := by decide

theorem test_rac_three_ill_formed : (Instr.rac .a1 .a1 3).wellFormed = false := by decide

theorem test_rach_zero_ill_formed : (Instr.rach .a0 .a0 0).wellFormed = false := by decide

theorem test_rach_three_ill_formed : (Instr.rach .a1 .a0 3).wellFormed = false := by decide

theorem test_rac_rach_well_formed :
    (Instr.rac .a0 .a1 1).wellFormed = true ∧ (Instr.rach .a1 .a0 2).wellFormed = true := by decide

/-! ## Small states -/

/-- The reset state with the pc moved and the code word at address H'100. -/
def start (pc word : Word) : State :=
  { State.reset with pc := pc, mem := Memory.place [] 256 (Code.word word).bytes }

/-- The state with bytes placed in memory. -/
def placing (s : State) (a : Nat) (bs : List Byte) : State := { s with mem := s.mem.place a bs }

/-- The state with the listed registers holding the listed values. -/
def withRegs (s : State) : List (Reg × Word) → State
  | [] => s
  | (n, v) :: l => withRegs (s.setReg n v) l

/-- The data bytes of the vectors. -/
def sample : List Byte := [0x12, 0x34, 0x56, 0x78, 0x80, 0xFF, 0x00, 0x7F]

/-- What `f` reads from the state after one step that answers a next state. -/
def outcome {α : Type} (s : State) (f : State → α) : Option α :=
  match step s with
  | .next t => some (f t)
  | _ => none

/-- Why one step is refused. -/
def refusal (s : State) : Option Refusal :=
  match step s with
  | .refused r => some r
  | _ => none

/-! ## Decoding -/

/-- Reserved encodings (R71): an unlisted sub-opcode, a register field that is no register, an accumulator code that
names none, an extension halfword that is no operation. -/
theorem test_decode_reserved :
    decode16 0b0001_0011_0001_1100#16 = none ∧ decode16 0b0000_0001_0111_0011#16 = none ∧
    decode16 0b0101_0011_0111_1000#16 = none ∧ decode16 0b0101_1000_1001_0000#16 = none ∧
    decode32 0b1001_0011_0000_1100_0000_0000_0000_1000#32 = none ∧
    decode32 0b1101_0011_0110_1100_1001_0001_1010_0101#32 = none := by
  decide

/-- What lies before an instruction's last byte and what follows it: 2 bytes taken, the rest given back. -/
theorem test_decode_rest : decodeBytes [0x03, 0xAC, 0x12, 0x34] = .ok (.add 3 12, [0x12, 0x34]) := by decide

theorem test_decode_truncated :
    (∃ e, decodeBytes [0x83] = .error e) ∧ ∃ e, decodeBytes [0x83, 0xAC, 0x00] = .error e :=
  ⟨⟨_, rfl⟩, ⟨_, rfl⟩⟩

/-- The numbering of spec/opcode_table.json: a row's match value is read as the row's instruction. -/
theorem test_decode_table_word :
    decodeTableWord 16 0x00A0 = some (.add 0 0) ∧ decodeTableWord 32 0x90000018 = some (.divb 0 0) ∧
    decodeTableWord 16 0x0170 = none := by
  decide

/-- The encodings of opcode map 0 (R69, R72), each written out from its rule. -/
theorem test_decode_op0a :
    decode16 0b0000_0011_0000_1100#16 = some (.subv 3 12) ∧
    decode16 0b0000_0011_0001_1100#16 = some (.subx 3 12) ∧
    decode16 0b0000_0011_0010_1100#16 = some (.sub 3 12) ∧
    decode16 0b0000_0011_0011_1100#16 = some (.neg 3 12) ∧
    decode16 0b0000_0011_0100_1100#16 = some (.cmp 3 12) ∧
    decode16 0b0000_0011_0101_1100#16 = some (.cmpu 3 12) ∧
    decode16 0b0000_0011_0110_1100#16 = some (.cmpeq 3 12) ∧
    decode16 0b0000_0000_0111_0011#16 = some (.cmpz 3) ∧
    decode16 0b0000_0011_0111_0011#16 = some (.pcmpbz 3) ∧
    decode16 0b0000_0011_1000_1100#16 = some (.addv 3 12) ∧
    decode16 0b0000_0011_1001_1100#16 = some (.addx 3 12) ∧
    decode16 0b0000_0011_1010_1100#16 = some (.add 3 12) := by
  decide

/-- The encodings of opcode map 0 (R69, R72), each written out from its rule. -/
theorem test_decode_op0b :
    decode16 0b0000_0011_1011_1100#16 = some (.not 3 12) ∧
    decode16 0b0000_0011_1100_1100#16 = some (.and 3 12) ∧
    decode16 0b0000_0011_1101_1100#16 = some (.xor 3 12) ∧
    decode16 0b0000_0011_1110_1100#16 = some (.or 3 12) ∧
    decode16 0b0000_0110_1111_0011#16 = some (.btst 6 3) := by
  decide

/-- The encodings of opcode map 1 (R69, R72), each written out from its rule. -/
theorem test_decode_op1a :
    decode16 0b0001_0011_0000_1100#16 = some (.srl 3 12) ∧
    decode16 0b0001_0011_0010_1100#16 = some (.sra 3 12) ∧
    decode16 0b0001_0011_0100_1100#16 = some (.sll 3 12) ∧
    decode16 0b0001_0011_0110_1100#16 = some (.mul 3 12) ∧
    decode16 0b0001_0011_1000_1100#16 = some (.mv 3 12) ∧
    decode16 0b0001_0011_1001_1100#16 = some (.mvfc 3 12) ∧
    decode16 0b0001_0011_1010_1100#16 = some (.mvtc 3 12) ∧
    decode16 0b0001_1100_1100_0011#16 = some (.jc 3) ∧
    decode16 0b0001_1101_1100_0011#16 = some (.jnc 3) ∧
    decode16 0b0001_1110_1100_0011#16 = some (.jl 3) ∧
    decode16 0b0001_1111_1100_0011#16 = some (.jmp 3) ∧
    decode16 0b0001_0000_1101_0110#16 = some .rte := by
  decide

/-- The encodings of opcode map 1 (R69, R72), each written out from its rule. -/
theorem test_decode_op1b :
    decode16 0b0001_0000_1111_0011#16 = some (.trap 3) := by
  decide

/-- The encodings of opcode map 2 (R69, R72), each written out from its rule. -/
theorem test_decode_op2a :
    decode16 0b0010_0011_0000_1100#16 = some (.stb 3 12) ∧
    decode16 0b0010_0011_0001_1100#16 = some (.stbPost 3 12) ∧
    decode16 0b0010_0011_0010_1100#16 = some (.sth 3 12) ∧
    decode16 0b0010_0011_0011_1100#16 = some (.sthPost 3 12) ∧
    decode16 0b0010_0011_0100_1100#16 = some (.st 3 12) ∧
    decode16 0b0010_0011_0101_1100#16 = some (.unlock 3 12) ∧
    decode16 0b0010_0011_0110_1100#16 = some (.stPreInc 3 12) ∧
    decode16 0b0010_0011_0111_1100#16 = some (.stPreDec 3 12) ∧
    decode16 0b0010_0011_1000_1100#16 = some (.ldb 3 12) ∧
    decode16 0b0010_0011_1001_1100#16 = some (.ldub 3 12) ∧
    decode16 0b0010_0011_1010_1100#16 = some (.ldh 3 12) ∧
    decode16 0b0010_0011_1011_1100#16 = some (.lduh 3 12) := by
  decide

/-- The encodings of opcode map 2 (R69, R72), each written out from its rule. -/
theorem test_decode_op2b :
    decode16 0b0010_0011_1100_1100#16 = some (.ld 3 12) ∧
    decode16 0b0010_0011_1101_1100#16 = some (.lock 3 12) ∧
    decode16 0b0010_0011_1110_1100#16 = some (.ldPost 3 12) := by
  decide

/-- The encodings of opcode map 3 (R69, R72), each written out from its rule. -/
theorem test_decode_op3 :
    decode16 0b0011_0011_1000_1100#16 = some (.mulhi 3 12 .a1) ∧
    decode16 0b0011_0011_1001_1100#16 = some (.mullo 3 12 .a1) ∧
    decode16 0b0011_0011_0010_1100#16 = some (.mulwhi 3 12) ∧
    decode16 0b0011_0011_0011_1100#16 = some (.mulwlo 3 12) ∧
    decode16 0b0011_0011_1100_1100#16 = some (.machi 3 12 .a1) ∧
    decode16 0b0011_0011_1101_1100#16 = some (.maclo 3 12 .a1) ∧
    decode16 0b0011_0011_0110_1100#16 = some (.macwhi 3 12) ∧
    decode16 0b0011_0011_0111_1100#16 = some (.macwlo 3 12) := by
  decide

/-- The encodings of opcode map 4 (R69, R72), each written out from its rule. -/
theorem test_decode_op4 :
    decode16 0b0100_0011_1010_0101#16 = some (.addi 3 0xA5) := by
  decide

/-- The encodings of opcode map 5 (R69, R72), each written out from its rule. -/
theorem test_decode_op5a :
    decode16 0b0101_0011_0001_0110#16 = some (.srli 3 22) ∧
    decode16 0b0101_0011_0011_0110#16 = some (.srai 3 22) ∧
    decode16 0b0101_0011_0101_0110#16 = some (.slli 3 22) ∧
    decode16 0b0101_0011_0111_0100#16 = some (.mvtachi 3 .a1) ∧
    decode16 0b0101_0011_0111_0101#16 = some (.mvtaclo 3 .a1) ∧
    decode16 0b0101_0100_1000_0001#16 = some (.rach .a1 .a0 2) ∧
    decode16 0b0101_0100_1001_0001#16 = some (.rac .a1 .a0 2) ∧
    decode16 0b0101_0011_1010_1100#16 = some (.mulwu1 3 12) ∧
    decode16 0b0101_0011_1011_1100#16 = some (.macwu1 3 12) ∧
    decode16 0b0101_0011_1100_1100#16 = some (.maclh1 3 12) ∧
    decode16 0b0101_0011_1101_1100#16 = some (.msblo 3 12) ∧
    decode16 0b0101_0000_1110_0100#16 = some .sadd := by
  decide

/-- The encodings of opcode map 5 (R69, R72), each written out from its rule. -/
theorem test_decode_op5b :
    decode16 0b0101_0011_1111_0100#16 = some (.mvfachi 3 .a1) ∧
    decode16 0b0101_0011_1111_0101#16 = some (.mvfaclo 3 .a1) ∧
    decode16 0b0101_0011_1111_0110#16 = some (.mvfacmi 3 .a1) := by
  decide

/-- The encodings of opcode map 6 (R69, R72), each written out from its rule. -/
theorem test_decode_op6 :
    decode16 0b0110_0011_1010_0101#16 = some (.ldi8 3 0xA5) := by
  decide

/-- The encodings of opcode map 7 (R69, R72), each written out from its rule. -/
theorem test_decode_op7 :
    decode16 0b0111_0000_0000_0000#16 = some .nop ∧
    decode16 0b0111_0001_1010_0101#16 = some (.setpsw 0xA5) ∧
    decode16 0b0111_0010_1010_0101#16 = some (.clrpsw 0xA5) ∧
    decode16 0b0111_0100_0000_0001#16 = some .sc ∧
    decode16 0b0111_0101_0000_0001#16 = some .snc ∧
    decode16 0b0111_1000_1010_0101#16 = some (.bcl8 0xA5) ∧
    decode16 0b0111_1001_1010_0101#16 = some (.bncl8 0xA5) ∧
    decode16 0b0111_1100_1010_0101#16 = some (.bc8 0xA5) ∧
    decode16 0b0111_1101_1010_0101#16 = some (.bnc8 0xA5) ∧
    decode16 0b0111_1110_1010_0101#16 = some (.bl8 0xA5) ∧
    decode16 0b0111_1111_1010_0101#16 = some (.bra8 0xA5) := by
  decide

/-- The encodings of opcode map 8 (R69, R72), each written out from its rule. -/
theorem test_decode_op8 :
    decode32 0b1000_0000_0100_0011_1111_0000_1110_0001#32 = some (.cmpi 3 0xF0E1) ∧
    decode32 0b1000_0000_0101_0011_1111_0000_1110_0001#32 = some (.cmpui 3 0xF0E1) ∧
    decode32 0b1000_0011_0110_1100_0000_0011_0000_0000#32 = some (.satb 3 12) ∧
    decode32 0b1000_0011_0110_1100_0000_0010_0000_0000#32 = some (.sath 3 12) ∧
    decode32 0b1000_0011_1000_1100_1111_0000_1110_0001#32 = some (.addv3 3 12 0xF0E1) ∧
    decode32 0b1000_0011_1010_1100_1111_0000_1110_0001#32 = some (.add3 3 12 0xF0E1) ∧
    decode32 0b1000_0011_1100_1100_1111_0000_1110_0001#32 = some (.and3 3 12 0xF0E1) ∧
    decode32 0b1000_0011_1101_1100_1111_0000_1110_0001#32 = some (.xor3 3 12 0xF0E1) ∧
    decode32 0b1000_0011_1110_1100_1111_0000_1110_0001#32 = some (.or3 3 12 0xF0E1) := by
  decide

/-- The encodings of opcode map 9 (R69, R72), each written out from its rule. -/
theorem test_decode_op9a :
    decode32 0b1001_0011_0000_1100_0000_0000_0000_0000#32 = some (.div 3 12) ∧
    decode32 0b1001_0011_0000_1100_0000_0000_0001_1000#32 = some (.divb 3 12) ∧
    decode32 0b1001_0011_0000_1100_0000_0000_0001_0000#32 = some (.divh 3 12) ∧
    decode32 0b1001_0011_0001_1100_0000_0000_0000_0000#32 = some (.divu 3 12) ∧
    decode32 0b1001_0011_0001_1100_0000_0000_0001_1000#32 = some (.divub 3 12) ∧
    decode32 0b1001_0011_0001_1100_0000_0000_0001_0000#32 = some (.divuh 3 12) ∧
    decode32 0b1001_0011_0010_1100_0000_0000_0000_0000#32 = some (.rem 3 12) ∧
    decode32 0b1001_0011_0010_1100_0000_0000_0001_1000#32 = some (.remb 3 12) ∧
    decode32 0b1001_0011_0010_1100_0000_0000_0001_0000#32 = some (.remh 3 12) ∧
    decode32 0b1001_0011_0011_1100_0000_0000_0000_0000#32 = some (.remu 3 12) ∧
    decode32 0b1001_0011_0011_1100_0000_0000_0001_1000#32 = some (.remub 3 12) ∧
    decode32 0b1001_0011_0011_1100_0000_0000_0001_0000#32 = some (.remuh 3 12) := by
  decide

/-- The encodings of opcode map 9 (R69, R72), each written out from its rule. -/
theorem test_decode_op9b :
    decode32 0b1001_0011_1000_1100_1111_0000_1110_0001#32 = some (.srl3 3 12 0xF0E1) ∧
    decode32 0b1001_0011_1010_1100_1111_0000_1110_0001#32 = some (.sra3 3 12 0xF0E1) ∧
    decode32 0b1001_0011_1100_1100_1111_0000_1110_0001#32 = some (.sll3 3 12 0xF0E1) ∧
    decode32 0b1001_0011_1111_0000_1111_0000_1110_0001#32 = some (.ldi16 3 0xF0E1) := by
  decide

/-- The encodings of opcode map 10 (R69, R72), each written out from its rule. -/
theorem test_decode_op10 :
    decode32 0b1010_0011_0000_1100_1111_0000_1110_0001#32 = some (.stbDisp 3 12 0xF0E1) ∧
    decode32 0b1010_0011_0010_1100_1111_0000_1110_0001#32 = some (.sthDisp 3 12 0xF0E1) ∧
    decode32 0b1010_0011_0100_1100_1111_0000_1110_0001#32 = some (.stDisp 3 12 0xF0E1) ∧
    decode32 0b1010_0110_0110_0011_1111_0000_1110_0001#32 = some (.bset 6 3 0xF0E1) ∧
    decode32 0b1010_0110_0111_0011_1111_0000_1110_0001#32 = some (.bclr 6 3 0xF0E1) ∧
    decode32 0b1010_0011_1000_1100_1111_0000_1110_0001#32 = some (.ldbDisp 3 12 0xF0E1) ∧
    decode32 0b1010_0011_1001_1100_1111_0000_1110_0001#32 = some (.ldubDisp 3 12 0xF0E1) ∧
    decode32 0b1010_0011_1010_1100_1111_0000_1110_0001#32 = some (.ldhDisp 3 12 0xF0E1) ∧
    decode32 0b1010_0011_1011_1100_1111_0000_1110_0001#32 = some (.lduhDisp 3 12 0xF0E1) ∧
    decode32 0b1010_0011_1100_1100_1111_0000_1110_0001#32 = some (.ldDisp 3 12 0xF0E1) := by
  decide

/-- The encodings of opcode map 11 (R69, R72), each written out from its rule. -/
theorem test_decode_op11 :
    decode32 0b1011_0011_0000_1100_1111_0000_1110_0001#32 = some (.beq 3 12 0xF0E1) ∧
    decode32 0b1011_0011_0001_1100_1111_0000_1110_0001#32 = some (.bne 3 12 0xF0E1) ∧
    decode32 0b1011_0000_1000_0011_1111_0000_1110_0001#32 = some (.beqz 3 0xF0E1) ∧
    decode32 0b1011_0000_1001_0011_1111_0000_1110_0001#32 = some (.bnez 3 0xF0E1) ∧
    decode32 0b1011_0000_1010_0011_1111_0000_1110_0001#32 = some (.bltz 3 0xF0E1) ∧
    decode32 0b1011_0000_1011_0011_1111_0000_1110_0001#32 = some (.bgez 3 0xF0E1) ∧
    decode32 0b1011_0000_1100_0011_1111_0000_1110_0001#32 = some (.blez 3 0xF0E1) ∧
    decode32 0b1011_0000_1101_0011_1111_0000_1110_0001#32 = some (.bgtz 3 0xF0E1) := by
  decide

/-- The encodings of opcode map 13 (R69, R72), each written out from its rule. -/
theorem test_decode_op13 :
    decode32 0b1101_0011_0101_1100_1001_0000_1010_0101#32 = some (.mvfcp 3 12 9 0xA5) ∧
    decode32 0b1101_0011_0110_1100_1001_0000_1010_0101#32 = some (.mvtcp 3 12 9 0xA5) ∧
    decode32 0b1101_0011_0111_1100_1001_0000_1010_0101#32 = some (.opecp 3 12 9 0xA5) ∧
    decode32 0b1101_0011_1100_0000_1111_0000_1110_0001#32 = some (.seth 3 0xF0E1) := by
  decide

/-- The encodings of opcode map 14 (R69, R72), each written out from its rule. -/
theorem test_decode_op14 :
    decode32 0b1110_0011_1000_1100_0000_1111_1111_0001#32 = some (.ld24 3 0x8C0FF1) := by
  decide

/-- The encodings of opcode map 15 (R69, R72), each written out from its rule. -/
theorem test_decode_op15 :
    decode32 0b1111_1000_1000_1100_0000_1111_1111_0001#32 = some (.bcl24 0x8C0FF1) ∧
    decode32 0b1111_1001_1000_1100_0000_1111_1111_0001#32 = some (.bncl24 0x8C0FF1) ∧
    decode32 0b1111_1100_1000_1100_0000_1111_1111_0001#32 = some (.bc24 0x8C0FF1) ∧
    decode32 0b1111_1101_1000_1100_0000_1111_1111_0001#32 = some (.bnc24 0x8C0FF1) ∧
    decode32 0b1111_1110_1000_1100_0000_1111_1111_0001#32 = some (.bl24 0x8C0FF1) ∧
    decode32 0b1111_1111_1000_1100_0000_1111_1111_0001#32 = some (.bra24 0x8C0FF1) := by
  decide

/-! ## Vectors of 95_test_vectors.md, section 2.1 -/

theorem test_ld : outcome (withRegs (placing (start 0x100 0x21E27000) 0x1000 sample) [(2, 0x1000)])
    (fun t => (t.getReg 1, t.getReg 2, t.pc)) = some (0x12345678, 0x1004, 0x102) := by decide

theorem test_ldb : outcome (withRegs (placing (start 0x100 0xA1820003) 0x1000 sample) [(2, 0x1000)])
    (fun t => (t.getReg 1, t.pc)) = some (0x78, 0x104) := by decide

theorem test_ldub : outcome (withRegs (placing (start 0x100 0x21927000) 0x1000 sample) [(2, 0x1004)])
    (fun t => (t.getReg 1, t.pc)) = some (0x80, 0x102) := by decide

theorem test_ldh : outcome (withRegs (placing (start 0x100 0x21A27000) 0x1000 sample) [(2, 0x1004)])
    (fun t => (t.getReg 1, t.pc)) = some (0xFFFF80FF, 0x102) := by decide

theorem test_lduh : outcome (withRegs (placing (start 0x100 0xA1B20002) 0x1000 sample) [(2, 0x1004)])
    (fun t => (t.getReg 1, t.pc)) = some (0x7F, 0x104) := by decide

theorem test_st : outcome (withRegs (placing (start 0x100 0x21627000) 0x1000 sample) [(1, 0xA1B2C3D4), (2, 0x1000)])
    (fun t => (t.getReg 2, t.pc, t.mem.readByte 0x1004, t.mem.readByte 0x1005, t.mem.readByte 0x1006, t.mem.readByte 0x1007)) =
      some (0x1004, 0x102, 0xA1, 0xB2, 0xC3, 0xD4) := by decide

theorem test_stb : outcome (withRegs (placing (start 0x100 0x21127000) 0x1000 sample) [(1, 0xA1B2C3D4), (2, 0x1001)])
    (fun t => (t.getReg 2, t.pc, t.mem.readByte 0x1001)) = some (0x1002, 0x102, 0xD4) := by decide

theorem test_sth : outcome (withRegs (placing (start 0x100 0xA122FFFE) 0x1000 sample) [(1, 0xA1B2C3D4), (2, 0x1002)])
    (fun t => (t.pc, t.mem.readByte 0x1000, t.mem.readByte 0x1001)) = some (0x104, 0xC3, 0xD4) := by decide

theorem test_lock :
    outcome (withRegs { placing (start 0x100 0x21D27000) 0x1000 sample with lock := false } [(2, 0x1000)])
      (fun t => (t.getReg 1, t.lock, t.pc)) = some (0x12345678, true, 0x102) := by decide

theorem test_unlock :
    outcome (withRegs { placing (start 0x100 0x21527000) 0x1000 sample
        with lock := false } [(1, 0xA1B2C3D4), (2, 0x1000)])
      (fun t => t.pc) = some 0x102 := by decide

/-! ## Vectors of 95_test_vectors.md, section 2.2 -/

theorem test_ldi : outcome (start 0x100 0x617F7000)
    (fun t => (t.getReg 1, t.pc)) = some (0x7F, 0x102) := by decide

theorem test_ld24 : outcome (start 0x100 0xE1FFFFFF)
    (fun t => (t.getReg 1, t.pc)) = some (0xFFFFFF, 0x104) := by decide

theorem test_seth : outcome (withRegs (start 0x100 0xD1C08000) [(1, 0x1234FFFF)])
    (fun t => (t.getReg 1, t.pc)) = some (0x80000000, 0x104) := by decide

theorem test_mv :
    outcome ({ (start 0x100 0x118F7000) with psw := { Psw.reset with sm := true }, spi := 0x2000, spu := 0x3000 })
      (fun t => (t.getReg 1, t.pc)) = some (0x3000, 0x102) := by decide

theorem test_mvfc : outcome ({ (start 0x100 0x11917000) with psw := { Psw.reset with c := true, ie := true } })
    (fun t => (t.getReg 1, t.pc)) = some (1, 0x102) := by decide

theorem test_mvtc : outcome (withRegs (start 0x100 0x11A17000) [(1, 1)])
    (fun t => t.pc) = some 0x102 := by decide

/-! ## Vectors of 95_test_vectors.md, section 2.3 -/

theorem test_cmp : outcome (withRegs (start 0x100 0x01427000) [(1, 0x80000000), (2, 0x7FFFFFFF)])
    (fun t => (t.pc, t.psw.c)) = some (0x102, true) := by decide

theorem test_cmpu :
    outcome (withRegs { (start 0x100 0x01527000) with psw := { Psw.reset with c := true } } [(1, 0xFFFFFFFF), (2, 1)])
      (fun t => (t.pc, t.psw.c)) = some (0x102, false) := by decide

theorem test_cmpeq : outcome (withRegs (start 0x100 0x01627000) [(1, 5), (2, 5)])
    (fun t => (t.pc, t.psw.c)) = some (0x102, true) := by decide

theorem test_cmpz : outcome (withRegs { (start 0x100 0x00717000) with psw := { Psw.reset with c := true } } [(1, 1)])
    (fun t => (t.pc, t.psw.c)) = some (0x102, false) := by decide

theorem test_cmpi : outcome (withRegs (start 0x100 0x8041FFFF) [(1, 0xFFFFFFFE)])
    (fun t => (t.pc, t.psw.c)) = some (0x104, true) := by decide

theorem test_cmpui :
    outcome (withRegs { (start 0x100 0x80517FFF) with psw := { Psw.reset with c := true } } [(1, 0x8000)])
      (fun t => (t.pc, t.psw.c)) = some (0x104, false) := by decide

theorem test_pcmpbz :
    outcome (withRegs { (start 0x100 0x03717000) with psw := { Psw.reset with c := true } } [(1, 0x1010101)])
      (fun t => (t.pc, t.psw.c)) = some (0x102, false) := by decide

/-! ## Vectors of 95_test_vectors.md, section 2.4 -/

theorem test_add :
    outcome (withRegs { (start 0x100 0x01A27000) with psw := { Psw.reset with c := false } } [(1, 0xFFFFFFFF), (2, 2)])
      (fun t => (t.getReg 1, t.pc)) = some (1, 0x102) := by decide

theorem test_addi : outcome (withRegs (start 0x100 0x41807000) [(1, 0x40)])
    (fun t => (t.getReg 1, t.pc)) = some (0xFFFFFFC0, 0x102) := by decide

theorem test_add3 : outcome (withRegs (start 0x100 0x81A2FFFF) [(2, 0)])
    (fun t => (t.getReg 1, t.pc)) = some (0xFFFFFFFF, 0x104) := by decide

theorem test_addv :
    outcome (withRegs { (start 0x100 0x01827000) with psw := { Psw.reset with c := true } } [(1, 0xFFFFFFFF), (2, 1)])
      (fun t => (t.getReg 1, t.pc, t.psw.c)) = some (0, 0x102, false) := by decide

theorem test_addv3 : outcome (withRegs (start 0x100 0x8182FFFF) [(2, 0x80000000)])
    (fun t => (t.getReg 1, t.pc, t.psw.c)) = some (0x7FFFFFFF, 0x104, true) := by decide

theorem test_addx :
    outcome (withRegs { (start 0x100 0x01927000) with psw := { Psw.reset with c := true } } [(1, 0x7FFFFFFF), (2, 1)])
      (fun t => (t.getReg 1, t.pc, t.psw.c)) = some (0x80000001, 0x102, false) := by decide

theorem test_neg : outcome (withRegs (start 0x100 0x01327000) [(2, 1)])
    (fun t => (t.getReg 1, t.pc)) = some (0xFFFFFFFF, 0x102) := by decide

theorem test_sub : outcome (withRegs (start 0x100 0x01227000) [(1, 0), (2, 1)])
    (fun t => (t.getReg 1, t.pc)) = some (0xFFFFFFFF, 0x102) := by decide

theorem test_subv :
    outcome (withRegs { (start 0x100 0x01027000) with psw := { Psw.reset with c := true } } [(1, 0), (2, 1)])
      (fun t => (t.getReg 1, t.pc, t.psw.c)) = some (0xFFFFFFFF, 0x102, false) := by decide

theorem test_subx :
    outcome (withRegs { (start 0x100 0x01127000) with psw := { Psw.reset with c := true } } [(1, 5), (2, 4)])
      (fun t => (t.getReg 1, t.pc, t.psw.c)) = some (0, 0x102, false) := by decide

/-! ## Vectors of 95_test_vectors.md, section 2.5 -/

theorem test_and : outcome (withRegs (start 0x100 0x01C27000) [(1, 0xFF00FF00), (2, 0xFF00FF0)])
    (fun t => (t.getReg 1, t.pc)) = some (0xF000F00, 0x102) := by decide

theorem test_or : outcome (withRegs (start 0x100 0x01E27000) [(1, 0xFF00FF00), (2, 0xFF00FF0)])
    (fun t => (t.getReg 1, t.pc)) = some (0xFFF0FFF0, 0x102) := by decide

theorem test_xor : outcome (withRegs (start 0x100 0x01D27000) [(1, 0xFF00FF00), (2, 0xFF00FF0)])
    (fun t => (t.getReg 1, t.pc)) = some (0xF0F0F0F0, 0x102) := by decide

theorem test_not : outcome (withRegs (start 0x100 0x01B27000) [(2, 0xFF00FF0)])
    (fun t => (t.getReg 1, t.pc)) = some (0xF00FF00F, 0x102) := by decide

theorem test_and3 : outcome (withRegs (start 0x100 0x81C28000) [(2, 0xFFFFFFFF)])
    (fun t => (t.getReg 1, t.pc)) = some (0x8000, 0x104) := by decide

theorem test_or3 : outcome (withRegs (start 0x100 0x81E2FFFF) [(2, 0x12340000)])
    (fun t => (t.getReg 1, t.pc)) = some (0x1234FFFF, 0x104) := by decide

theorem test_xor3 : outcome (withRegs (start 0x100 0x81D2FFFF) [(2, 0xFFFFFFFF)])
    (fun t => (t.getReg 1, t.pc)) = some (0xFFFF0000, 0x104) := by decide

/-! ## Vectors of 95_test_vectors.md, section 2.6 -/

theorem test_div : outcome (withRegs (start 0x100 0x91020000) [(1, 0x12345678), (2, 0)])
    (fun t => t.pc) = some 0x104 := by decide

theorem test_rem : outcome (withRegs (start 0x100 0x91220000) [(1, 7), (2, 0xFFFFFFFE)])
    (fun t => (t.getReg 1, t.pc)) = some (1, 0x104) := by decide

theorem test_divu : outcome (withRegs (start 0x100 0x91120000) [(1, 0xFFFFFFF9), (2, 2)])
    (fun t => (t.getReg 1, t.pc)) = some (0x7FFFFFFC, 0x104) := by decide

theorem test_remu : outcome (withRegs (start 0x100 0x91320000) [(1, 0xFFFFFFF9), (2, 2)])
    (fun t => (t.getReg 1, t.pc)) = some (1, 0x104) := by decide

theorem test_divb : outcome (withRegs (start 0x100 0x91020018) [(1, 0x12345680), (2, 2)])
    (fun t => (t.getReg 1, t.pc)) = some (0xFFFFFFC0, 0x104) := by decide

theorem test_divub : outcome (withRegs (start 0x100 0x91120018) [(1, 0x123456F9), (2, 0)])
    (fun t => t.pc) = some 0x104 := by decide

theorem test_divh : outcome (withRegs (start 0x100 0x91020010) [(1, 0x12348000), (2, 0xFFFFFFFF)])
    (fun t => (t.getReg 1, t.pc)) = some (0x8000, 0x104) := by decide

theorem test_divuh : outcome (withRegs (start 0x100 0x91120010) [(1, 0x12348000), (2, 0x100)])
    (fun t => (t.getReg 1, t.pc)) = some (0x80, 0x104) := by decide

theorem test_remb : outcome (withRegs (start 0x100 0x91220018) [(1, 0x123456F9), (2, 4)])
    (fun t => (t.getReg 1, t.pc)) = some (0xFFFFFFFD, 0x104) := by decide

theorem test_remub : outcome (withRegs (start 0x100 0x91320018) [(1, 0x123456F9), (2, 4)])
    (fun t => (t.getReg 1, t.pc)) = some (1, 0x104) := by decide

theorem test_remh : outcome (withRegs (start 0x100 0x91220010) [(1, 0x1234FFF9), (2, 4)])
    (fun t => (t.getReg 1, t.pc)) = some (0xFFFFFFFD, 0x104) := by decide

theorem test_remuh : outcome (withRegs (start 0x100 0x91320010) [(1, 0x1234FFF9), (2, 4)])
    (fun t => (t.getReg 1, t.pc)) = some (1, 0x104) := by decide

/-! ## Vectors of 95_test_vectors.md, section 2.7 -/

theorem test_sll : outcome (withRegs (start 0x100 0x11427000) [(1, 0xFFFFFFFF), (2, 0x1F)])
    (fun t => (t.getReg 1, t.pc)) = some (0x80000000, 0x102) := by decide

theorem test_sra : outcome (withRegs (start 0x100 0x11227000) [(1, 0x80000000), (2, 0x1F)])
    (fun t => (t.getReg 1, t.pc)) = some (0xFFFFFFFF, 0x102) := by decide

theorem test_srl : outcome (withRegs (start 0x100 0x11027000) [(1, 0x80000000), (2, 0x20)])
    (fun t => t.pc) = some 0x102 := by decide

theorem test_slli : outcome (withRegs (start 0x100 0x515F7000) [(1, 3)])
    (fun t => (t.getReg 1, t.pc)) = some (0x80000000, 0x102) := by decide

theorem test_srai : outcome (withRegs (start 0x100 0x51247000) [(1, 0xF0000000)])
    (fun t => (t.getReg 1, t.pc)) = some (0xFF000000, 0x102) := by decide

theorem test_srli : outcome (withRegs (start 0x100 0x51047000) [(1, 0xF0000000)])
    (fun t => (t.getReg 1, t.pc)) = some (0xF000000, 0x102) := by decide

theorem test_sll3 : outcome (withRegs (start 0x100 0x91C2FFE1) [(2, 0x40000001)])
    (fun t => (t.getReg 1, t.pc)) = some (0x80000002, 0x104) := by decide

theorem test_sra3 : outcome (withRegs (start 0x100 0x91A20008) [(2, 0x80000000)])
    (fun t => (t.getReg 1, t.pc)) = some (0xFF800000, 0x104) := by decide

theorem test_srl3 : outcome (withRegs (start 0x100 0x91820008) [(2, 0x80000000)])
    (fun t => (t.getReg 1, t.pc)) = some (0x800000, 0x104) := by decide

/-! ## Vectors of 95_test_vectors.md, section 2.8 -/

theorem test_bra : outcome (start 0x102 0x70007FFF)
    (fun t => t.pc) = some 0xFC := by decide

theorem test_bl : outcome (withRegs (start 0x100 0xFEFFFFC0) [(14, 0)])
    (fun t => (t.getReg 14, t.pc)) = some (0x104, 0) := by decide

theorem test_bc : outcome ({ (start 0x100 0x7C027000) with psw := { Psw.reset with c := false } })
    (fun t => t.pc) = some 0x102 := by decide

theorem test_bnc : outcome ({ (start 0x100 0xFD000010) with psw := { Psw.reset with c := false } })
    (fun t => t.pc) = some 0x140 := by decide

theorem test_bcl :
    outcome (withRegs { (start 0x100 0x78027000) with psw := { Psw.reset with c := true } } [(14, 0x55)])
      (fun t => (t.getReg 14, t.pc)) = some (0x104, 0x108) := by decide

theorem test_bncl :
    outcome (withRegs { (start 0x100 0x79027000) with psw := { Psw.reset with c := false } } [(14, 0x55)])
      (fun t => (t.getReg 14, t.pc)) = some (0x104, 0x108) := by decide

theorem test_beq : outcome (withRegs (start 0x100 0xB102FFFE) [(1, 7), (2, 7)])
    (fun t => t.pc) = some 0xF8 := by decide

theorem test_bne : outcome (withRegs (start 0x100 0xB112FFFE) [(1, 7), (2, 7)])
    (fun t => t.pc) = some 0x104 := by decide

theorem test_beqz : outcome (withRegs (start 0x100 0xB0810003) [(1, 0)])
    (fun t => t.pc) = some 0x10C := by decide

theorem test_bnez : outcome (withRegs (start 0x100 0xB0910003) [(1, 0)])
    (fun t => t.pc) = some 0x104 := by decide

theorem test_bltz : outcome (withRegs (start 0x100 0xB0A10003) [(1, 0x80000000)])
    (fun t => t.pc) = some 0x10C := by decide

theorem test_bgez : outcome (withRegs (start 0x100 0xB0B10003) [(1, 0)])
    (fun t => t.pc) = some 0x10C := by decide

theorem test_blez : outcome (withRegs (start 0x100 0xB0C10003) [(1, 0)])
    (fun t => t.pc) = some 0x10C := by decide

theorem test_bgtz : outcome (withRegs (start 0x100 0xB0D10003) [(1, 0)])
    (fun t => t.pc) = some 0x104 := by decide

theorem test_jmp : outcome (withRegs (start 0x100 0x1FC17000) [(1, 0x1003)])
    (fun t => t.pc) = some 0x1000 := by decide

theorem test_jl : outcome (withRegs (start 0x102 0x70001EC1) [(1, 0x2000), (14, 0)])
    (fun t => (t.getReg 14, t.pc)) = some (0x104, 0x2000) := by decide

theorem test_jc :
    outcome (withRegs { (start 0x100 0x1CC17000) with psw := { Psw.reset with c := false } } [(1, 0x2000)])
      (fun t => t.pc) = some 0x102 := by decide

theorem test_jnc :
    outcome (withRegs { (start 0x100 0x1DC17000) with psw := { Psw.reset with c := false } } [(1, 0x2000)])
      (fun t => t.pc) = some 0x2000 := by decide

theorem test_nop : outcome (start 0x100 0x70007000)
    (fun t => t.pc) = some 0x102 := by decide

theorem test_sc : outcome ({ (start 0x100 0x74017000) with psw := { Psw.reset with c := true } })
    (fun t => t.pc) = some 0x102 := by decide

/-! ## Vectors of 95_test_vectors.md, section 2.9 -/

theorem test_bset : outcome (withRegs (placing (start 0x100 0xA762FFFF) 0x1000 sample) [(2, 0x1001)])
    (fun t => (t.pc, t.mem.readByte 0x1000)) = some (0x104, 0x13) := by decide

theorem test_bclr : outcome (withRegs (placing (start 0x100 0xA0720005) 0x1000 sample) [(2, 0x1000)])
    (fun t => (t.pc, t.mem.readByte 0x1005)) = some (0x104, 0x7F) := by decide

theorem test_btst : outcome (withRegs (start 0x100 0x07F17000) [(1, 1)])
    (fun t => (t.pc, t.psw.c)) = some (0x102, true) := by decide

theorem test_setpsw : outcome (start 0x100 0x71087000)
    (fun t => (t.pc, t.psw.pm)) = some (0x102, true) := by decide

theorem test_clrpsw :
    outcome ({ (start 0x100 0x72FF7000) with psw := { Psw.reset
        with sm := true, ie := true, ce := true, c := true, bsm := true, bc := true } })
      (fun t => (t.pc, t.psw.sm, t.psw.ie, t.psw.ce, t.psw.c)) = some (0x102, false, false, false, false) := by decide

/-! ## Vectors of 95_test_vectors.md, section 2.10 -/

theorem test_rte :
    outcome ({ (start 0x100 0x10D67000) with psw := { Psw.reset
        with bsm := true, bie := true, bpm := true, bce := false, bc := true }, bpc := 0x2002 })
      (fun t => (t.pc, t.psw.sm, t.psw.ie, t.psw.pm, t.psw.c)) = some (0x2002, true, true, true, true) := by decide

/-! ## Vectors of 95_test_vectors.md, section 2.11 -/

theorem test_mulhi : outcome (withRegs (start 0x102 0x70003182) [(1, 0x80000000), (2, 0x80000000)])
    (fun t => (t.pc, t.acc1)) = some (0x104, 0x00400000000000) := by decide

theorem test_mullo : outcome (withRegs (start 0x102 0x70003112) [(1, 0x1234FFFF), (2, 2)])
    (fun t => (t.pc, t.acc0)) = some (0x104, 0xFFFFFFFFFE0000) := by decide

theorem test_mulwhi :
    outcome (withRegs { (start 0x102 0x70003122) with acc1 := 0x00000000000007 } [(1, 0x80000000), (2, 0x80000000)])
      (fun t => (t.pc, t.acc0)) = some (0x104, 0x00400000000000) := by decide

theorem test_mulwlo : outcome (withRegs (start 0x102 0x70003132) [(1, 0xFFFFFFFF), (2, 0xFFFF)])
    (fun t => (t.pc, t.acc0)) = some (0x104, 0x00000000000001) := by decide

theorem test_mulwu1 :
    outcome (withRegs { (start 0x102 0x700051A2) with acc0 := 0x00000000000007 } [(1, 0xFFFFFFFF), (2, 0xFFFF)])
      (fun t => (t.pc, t.acc1)) = some (0x104, 0xFFFFFFFFFF0001) := by decide

theorem test_machi :
    outcome (withRegs { (start 0x102 0x70003142) with acc0 := 0x00000000010000 } [(1, 0x20000), (2, 0x30000)])
      (fun t => (t.pc, t.acc0)) = some (0x104, 0x00000000070000) := by decide

theorem test_maclo :
    outcome (withRegs { (start 0x102 0x70003152) with acc0 := 0x7FFFFFFFFF0000 } [(1, 0x7FFF), (2, 0x7FFF)])
      (fun t => (t.pc, t.acc0)) = some (0x104, 0x803FFF00000000) := by decide

theorem test_macwhi :
    outcome (withRegs { (start 0x102 0x70003162) with acc0 := 0x00000000010000 } [(1, 0x10000), (2, 0xFFFF0000)])
      (fun t => (t.pc, t.acc0)) = some (0x104, 0x00000000000000) := by decide

theorem test_macwlo : outcome (withRegs { (start 0x102 0x70003172) with acc0 := 0x00000000000001 } [(1, 3), (2, 4)])
    (fun t => (t.pc, t.acc0)) = some (0x104, 0x0000000000000D) := by decide

theorem test_macwu1 :
    outcome (withRegs { (start 0x102 0x700051B2) with acc1 := 0x00000000000001 } [(1, 2), (2, 0x1234FFFF)])
      (fun t => (t.pc, t.acc1)) = some (0x104, 0x0000000001FFFF) := by decide

theorem test_maclh1 :
    outcome (withRegs { (start 0x102 0x700051C2) with acc1 := 0x00000000000000 } [(1, 2), (2, 0x30000)])
      (fun t => (t.pc, t.acc1)) = some (0x104, 0x00000000060000) := by decide

theorem test_msblo : outcome (withRegs { (start 0x102 0x700051D2) with acc0 := 0x00000000000000 } [(1, 2), (2, 3)])
    (fun t => (t.pc, t.acc0)) = some (0x104, 0xFFFFFFFFFA0000) := by decide

theorem test_mvtachi : outcome (withRegs { (start 0x102 0x70005170) with acc0 := 0x00000011223344 } [(1, 0x80ABCDEF)])
    (fun t => (t.pc, t.acc0)) = some (0x104, 0xABCDEF11223344) := by decide

theorem test_mvtaclo : outcome (withRegs { (start 0x102 0x70005175) with acc1 := 0x12345600000000 } [(1, 0x80ABCDEF)])
    (fun t => (t.pc, t.acc1)) = some (0x104, 0x12345680ABCDEF) := by decide

theorem test_mvfachi : outcome ({ (start 0x102 0x700051F0) with acc0 := 0xABCDEF11223344 })
    (fun t => (t.getReg 1, t.pc)) = some (0xFFABCDEF, 0x104) := by decide

theorem test_mvfaclo : outcome ({ (start 0x102 0x700051F1) with acc0 := 0xABCDEF11223344 })
    (fun t => (t.getReg 1, t.pc)) = some (0x11223344, 0x104) := by decide

theorem test_mvfacmi : outcome ({ (start 0x102 0x700051F6) with acc1 := 0xABCDEF11223344 })
    (fun t => (t.getReg 1, t.pc)) = some (0xCDEF1122, 0x104) := by decide

theorem test_rac : outcome ({ (start 0x102 0x70005090) with acc0 := 0x003FFFFFFF3FFF })
    (fun t => (t.pc, t.acc0)) = some (0x104, 0x007FFFFFFE0000) := by decide

theorem test_rach : outcome ({ (start 0x102 0x70005080) with acc0 := 0x003FFF3FFFFFFF })
    (fun t => (t.pc, t.acc0)) = some (0x104, 0x007FFE00000000) := by decide

theorem test_sadd : outcome ({ (start 0x102 0x700050E4) with acc0 := 0x00000000000010, acc1 := 0x0000012345FFFF })
    (fun t => (t.pc, t.acc0)) = some (0x104, 0x00000000012355) := by decide

theorem test_satb : outcome (withRegs (start 0x100 0x81620300) [(2, 0x7E)])
    (fun t => (t.getReg 1, t.pc)) = some (0x7E, 0x104) := by decide

theorem test_sath : outcome (withRegs (start 0x100 0x81620200) [(2, 0x7FFE)])
    (fun t => (t.getReg 1, t.pc)) = some (0x7FFE, 0x104) := by decide

/-! ## EITs, pairs, refusals -/

/-- TRAP #3 in the upper half of a sequential word: BPC is pc + 2, SM is kept (95_test_vectors.md, 2.10). -/
theorem test_trap :
    outcome { start 0x100 0x10F37000 with psw := { Psw.reset with sm := true, ie := true, pm := true, ce := true, c := true } }
      (fun t => (t.bpc, t.psw)) =
    some (0x102,
      { bsm := true, bie := true, bpm := true, bce := true, bc := true
        sm := true, ie := false, pm := false, ce := false, c := false }) := by decide

/-- RTE in user mode raises PIE: BPC is its own address (2.10). -/
theorem test_rte_user :
    outcome { start 0x100 0x10D67000 with psw := { Psw.reset with pm := true, bc := true }, bpc := 0x2002 }
      (fun t => (t.bpc, t.psw.bpm, t.psw.bc, t.psw.pm)) = some (0x100, true, false, false) := by decide

/-- A misaligned ST with update: AE, the base unchanged (2.1). -/
theorem test_st_misaligned :
    outcome (withRegs (placing (start 0x100 0x21627000) 0x1000 sample) [(1, 5), (2, 0xFFE)])
      (fun t => (t.bpc, t.getReg 2, t.mem.readByte 0x1002)) = some (0x100, 0xFFE, 0x56) := by decide

/-- A reserved encoding raises RIE (R274). -/
theorem test_reserved_word :
    outcome (start 0x100 0xC0000000) (fun t => (t.bpc, t.psw.ie, t.psw.pm)) = some (0x100, false, false) := by decide

/-- MV R1,R0 || MV R2,R1 (95_test_vectors.md, 1.3, example 1). -/
theorem test_pair_exchanges :
    outcome (withRegs (start 0x100 0x11809281) [(0, 0xAAAA), (1, 0xBBBB), (2, 0xCCCC)])
      (fun t => (t.getReg 1, t.getReg 2, t.pc)) = some (0xAAAA, 0xBBBB, 0x104) := by decide

/-- MV R1,R0 || MV R1,R2: R1 is a free value, the rest of the state is as the rules say (1.3, example 2). -/
theorem test_pair_collision :
    outcome (withRegs (start 0x100 0x11809182) [(0, 0xAAAA), (2, 0xCCCC)])
      (fun t => (t.getReg 0, t.getReg 2, t.pc)) = some (0xAAAA, 0xCCCC, 0x104) := by decide

/-- BC || CMP: the branch sees C from before the pair (1.3, example 4). -/
theorem test_pair_branch_and_compare :
    outcome (withRegs ({ start 0x100 0x7C048140 with psw := { Psw.reset with c := true } }) [(0, 3), (1, 5)])
      (fun t => (t.pc, t.psw.c)) = some (0x110, false) := by decide

/-- TRAP #1 || ADDI R3,#1: the partner is executed, BPC is the word after the pair (2.12). -/
theorem test_pair_trap :
    outcome (withRegs ({ start 0x100 0x10F1C301 with psw := { Psw.reset with c := true, ie := true } }) [(3, 1)])
      (fun t => (t.getReg 3, t.bpc, t.psw.bie, t.psw.bc, t.psw.ie, t.psw.c)) =
    some (2, 0x104, true, true, false, false) := by decide

/-- SNC || ADDI R3,#1 with C = 0: the partner is cancelled (2.12). -/
theorem test_pair_skip :
    outcome (withRegs (start 0x100 0x7501C301) [(3, 1)]) (fun t => (t.getReg 3, t.pc)) = some (1, 0x104) := by decide

/-- LD R1,@R2 || ADDI R3,#1 with AE: neither is executed (2.12). -/
theorem test_pair_address_exception :
    outcome (withRegs (start 0x100 0x21C2C301) [(2, 0x1001), (3, 1)]) (fun t => (t.getReg 3, t.bpc)) =
    some (1, 0x100) := by decide

/-- ADDI R3,#1 || a reserved halfword: RIE, ADDI not executed (2.12). -/
theorem test_pair_reserved :
    outcome (withRegs (start 0x100 0x4301B0A2) [(3, 1)]) (fun t => (t.getReg 3, t.bpc)) = some (1, 0x100) := by decide

/-- DIV of -2^31 by -1: the quotient is free, nothing else is (R160 (d)). -/
theorem test_div_overflow :
    outcome (withRegs (start 0x100 0x91020000) [(1, 0x80000000), (2, 0xFFFFFFFF)])
      (fun t => (t.getReg 2, t.psw.c, t.pc)) = some (0xFFFFFFFF, false, 0x104) := by decide

/-- MUL: the accumulators are free, the register is not (2.5). -/
theorem test_mul :
    outcome (withRegs (start 0x100 0x11627000) [(1, 0x10001), (2, 0xFFFFFFFF)]) (fun t => (t.getReg 1, t.pc)) =
    some (0xFFFEFFFF, 0x102) := by decide

/-- An external interrupt is taken only with IE = 1, and saves the address of the next instruction (R277, R279). -/
theorem test_interrupt :
    outcome { start 0x102 0x70007000 with
        irq := [{ reset := false, ei := some 5, cpi := false }], psw := { Psw.reset with ie := true } }
      (fun t => (t.bpc, t.psw.bie, t.psw.ie, t.irq)) = some (0x102, true, false, []) ∧
    outcome { start 0x102 0x70007000 with irq := [{ reset := false, ei := some 5, cpi := false }] }
      (fun t => (t.pc, t.irq)) = some (0x104, []) := by decide

/-- The refusals of the vectors, and the fetch's. -/
theorem test_refusals :
    refusal (withRegs (start 0x100 0x22E27000) [(2, 0x1000)]) = some .updateOfDataRegister ∧
    refusal (start 0x100 0x1ECE7000) = some .jumpLinkThroughLink ∧
    refusal { start 0x100 0x15A17000 with evbWritten := true } = some .evbWrittenTwice ∧
    refusal (withRegs (start 0x100 0x10A17000) [(1, 2)]) = some .fixedZeroBit ∧
    refusal (start 0x100 0x71027000) = some .fixedZeroBit ∧
    refusal (start 0x100 0x11947000) = some (.unassignedControlRegister 4) ∧
    refusal (start 0x100 0xD162305A) = some (.coprocessorAbsent 3) ∧
    refusal (withRegs (start 0x100 0x21C2A344) [(2, 0x1000), (4, 0x1004)]) = some .illegalPair ∧
    refusal (start 0x102 0x7000F000) = some .lowerHalfEntry ∧
    refusal { start 0x100 0x70007000 with stored := [0x101] } = some .fetchOfStoredCode ∧
    refusal { start 0x100 0x70007000 with stored := [0x102] } = none ∧
    refusal { start 0x80000000 0x70007000 with psw := { Psw.reset with pm := true } } =
      some .userAccessOutsideUserSpace := by
  decide

/-- `withFetchWord` places what the next step runs. -/
theorem test_with_fetch_word :
    outcome (withRegs State.reset [(3, 5), (12, 7)] |>.withFetchWord 16 0x03AC) (fun t => (t.getReg 3, t.pc)) =
      some (12, 2) ∧
    outcome (withRegs State.reset [(12, 7)] |>.withFetchWord 32 0x83ACFFFF) (fun t => (t.getReg 3, t.pc)) =
      some (6, 4) := by decide

/-! ## States and operands that meet the hypotheses of the statements -/

/-- User mode. -/
def user (s : State) : State := { s with psw := { s.psw with pm := true } }

/-- C = 1. -/
def carrySet (s : State) : State := { s with psw := { s.psw with c := true } }

/-- The next instruction issued as a member of a pair. -/
def paired (s : State) : State := { s with issue := .paired }

/-- Coprocessor 3 is present and answers the listed commands with CDE. -/
def withCoproc3 (s : State) (answersCDE : List CoprocCommand) (cpi : Bool) : State :=
  s.setCoproc 3 { content := 0, answersCDE := answersCDE, requestsCPI := cpi }

theorem witness_step_keeps_inv : ∃ t, State.reset.Inv ∧ step State.reset = .next t :=
  ⟨_, ⟨rfl, rfl, rfl, fun _ => rfl, rfl, rfl, rfl⟩, rfl⟩

theorem witness_decode_encode :
    (Instr.rac .a0 .a1 1).wellFormed = true ∧ (Instr.rach .a1 .a0 2).wellFormed = true ∧
      (Instr.opecp 15 15 15 255).wellFormed = true := by decide

theorem witness_encode_decode :
    decodeBytes [0x03, 0xAC, 0x12] = .ok (.add 3 12, [0x12]) ∧
      decodeBytes [0xFF, 0xFF, 0xFF, 0xFF] = .ok (.bra24 0xFFFFFF, []) := by decide

theorem quiet_of {s : State} (h : s.offer.reset = false ∧ s.acceptedInterrupt = none) : s.quiet := h

theorem fetchable_of {s : State} {k n : Nat}
    (h : (s.psw.pm = true → s.wordStart < 2147483648) ∧
      ∀ a ∈ s.stored, ¬ (s.wordStart + k ≤ a ∧ a < s.wordStart + k + n)) : s.fetchable k n := h

/-- Clause 1: a 32-bit instruction. -/
theorem witness_step_runs_decoded_word :
    let s := start 0x100 0x83AC0001
    s.quiet ∧ s.fetchable 0 4 ∧ s.pc.toNat % 4 = 0 ∧
      decodeBytes [s.codeByte 0, s.codeByte 1, s.codeByte 2, s.codeByte 3] = .ok (.add3 3 12 1, []) :=
  ⟨quiet_of (by decide), fetchable_of (by decide), by decide, by decide⟩

/-- Clause 2: the upper half of a sequential word. -/
theorem witness_step_runs_decoded_upper :
    let s := start 0x100 0x03AC04AC
    s.quiet ∧ s.fetchable 0 2 ∧ s.pc.toNat % 4 = 0 ∧ (s.codeByte 2).msb = false ∧
      decodeBytes [s.codeByte 0, s.codeByte 1, s.codeByte 2, s.codeByte 3] =
        .ok (.add 3 12, [s.codeByte 2, s.codeByte 3]) :=
  ⟨quiet_of (by decide), fetchable_of (by decide), by decide, by decide, by decide⟩

/-- Clause 3: the lower half of a sequential word, in user mode too. -/
theorem witness_step_runs_decoded_lower :
    let s := user (start 0x102 0x03AC04AC)
    s.quiet ∧ s.fetchable 2 2 ∧ s.pc.toNat % 4 = 2 ∧ (s.codeByte 0).msb = false ∧ (s.codeByte 2).msb = false ∧
      decodeBytes [s.codeByte 2, s.codeByte 3] = .ok (.add 4 12, []) :=
  ⟨quiet_of (by decide), fetchable_of (by decide), by decide, by decide, by decide, by decide⟩

/-- The last word of user space can be fetched in user mode, and the last word of all in supervisor mode. -/
theorem witness_fetchable_boundary : (user (start 0x7FFFFFFC 0)).fetchable 0 4 ∧
    (start 0xFFFFFFFE 0).fetchable 2 2 :=
  ⟨fetchable_of (by decide), fetchable_of (by decide)⟩

/-- An allowed pair, and one that is not. -/
theorem witness_step_runs_pair :
    (let s := start 0x100 0x11809281
     s.quiet ∧ s.fetchable 0 4 ∧ s.pc.toNat % 4 = 0 ∧ (s.codeByte 2).msb = true ∧
       decodeBytes [s.codeByte 0, s.codeByte 1] = .ok (.mv 1 0, []) ∧
       decodeBytes [s.codeByte 2 &&& 0x7F, s.codeByte 3] = .ok (.mv 2 1, []) ∧
       pairAllowed (.mv 1 0) (.mv 2 1) = true) ∧
    (let s := start 0x100 0x21C2A344
     s.quiet ∧ s.fetchable 0 4 ∧ s.pc.toNat % 4 = 0 ∧ (s.codeByte 2).msb = true ∧
       decodeBytes [s.codeByte 0, s.codeByte 1] = .ok (.ld 1 2, []) ∧
       decodeBytes [s.codeByte 2 &&& 0x7F, s.codeByte 3] = .ok (.st 3 4, []) ∧
       pairAllowed (.ld 1 2) (.st 3 4) = false) :=
  ⟨⟨quiet_of (by decide), fetchable_of (by decide), by decide, by decide, by decide, by decide, by decide⟩,
    ⟨quiet_of (by decide), fetchable_of (by decide), by decide, by decide, by decide, by decide, by decide⟩⟩

theorem witness_reserved_encoding_raises_rie :
    (let s := start 0x100 0xC0000000
     s.quiet ∧ s.fetchable 0 4 ∧ s.pc.toNat % 4 = 0 ∧ (s.codeByte 0).msb = true ∧
       ∃ e, decodeBytes [s.codeByte 0, s.codeByte 1, s.codeByte 2, s.codeByte 3] = .error e) ∧
    (let s := start 0x100 0x01717000
     s.quiet ∧ s.fetchable 0 2 ∧ s.pc.toNat % 4 = 0 ∧ (s.codeByte 0).msb = false ∧ (s.codeByte 2).msb = false ∧
       ∃ e, decodeBytes [s.codeByte 0, s.codeByte 1] = .error e) ∧
    (let s := start 0x102 0x70000171
     s.quiet ∧ s.fetchable 2 2 ∧ s.pc.toNat % 4 = 2 ∧ (s.codeByte 0).msb = false ∧ (s.codeByte 2).msb = false ∧
       ∃ e, decodeBytes [s.codeByte 2, s.codeByte 3] = .error e) ∧
    (let s := start 0x100 0x4301B0A2
     s.quiet ∧ s.fetchable 0 4 ∧ s.pc.toNat % 4 = 0 ∧ (s.codeByte 0).msb = false ∧ (s.codeByte 2).msb = true ∧
       ∃ e, decodeBytes [s.codeByte 2 &&& 0x7F, s.codeByte 3] = .error e) ∧
    (let s := start 0x100 0x0171F000
     s.quiet ∧ s.fetchable 0 4 ∧ s.pc.toNat % 4 = 0 ∧ (s.codeByte 0).msb = false ∧ (s.codeByte 2).msb = true ∧
       ∃ e, decodeBytes [s.codeByte 0, s.codeByte 1] = .error e) :=
  ⟨⟨quiet_of (by decide), fetchable_of (by decide), by decide, by decide, _, rfl⟩,
    ⟨quiet_of (by decide), fetchable_of (by decide), by decide, by decide, by decide, _, rfl⟩,
    ⟨quiet_of (by decide), fetchable_of (by decide), by decide, by decide, by decide, _, rfl⟩,
    ⟨quiet_of (by decide), fetchable_of (by decide), by decide, by decide, by decide, _, rfl⟩,
    ⟨quiet_of (by decide), fetchable_of (by decide), by decide, by decide, by decide, _, rfl⟩⟩

/-- Each clause at a boundary: the first word beyond user space; the first and the last byte of an instruction stored to; a
sequential-looking and a parallel-looking neighbour. -/
theorem witness_refused_fetches :
    (let s := user (start 0x80000000 0)
     s.quiet ∧ s.psw.pm = true ∧ 2147483648 ≤ s.wordStart) ∧
    (let s := user { start 0x7FFFFFFC 0 with stored := [0x7FFFFFFC] }
     s.quiet ∧ (s.psw.pm = true → s.wordStart < 2147483648) ∧
       s.pc.getLsbD 1 = false ∧ ∃ a ∈ s.stored, s.wordStart ≤ a ∧ a < s.wordStart + 2) ∧
    (let s : State := { start 0x100 0x83AC0001 with stored := [0x103] }
     s.quiet ∧ s.pc.getLsbD 1 = false ∧ (s.codeByte 0).msb = true ∧
       ∃ a ∈ s.stored, s.wordStart + 2 ≤ a ∧ a < s.wordStart + 4) ∧
    (let s : State := { start 0x102 0x70007000 with stored := [0x102] }
     s.quiet ∧ s.pc.getLsbD 1 = true ∧ ∃ a ∈ s.stored, s.wordStart + 2 ≤ a ∧ a < s.wordStart + 4) ∧
    (let s := start 0x102 0x7000F000
     s.quiet ∧ s.fetchable 2 2 ∧ s.pc.getLsbD 1 = true ∧ (s.codeByte 2).msb = true) ∧
    (let s := start 0x102 0x83AC0001
     s.quiet ∧ s.fetchable 2 2 ∧ s.pc.getLsbD 1 = true ∧ (s.codeByte 0).msb = true) :=
  ⟨⟨quiet_of (by decide), by decide, by decide⟩,
    ⟨quiet_of (by decide), by decide, by decide, by decide⟩,
    ⟨quiet_of (by decide), by decide, by decide, by decide⟩,
    ⟨quiet_of (by decide), by decide, by decide⟩,
    ⟨quiet_of (by decide), fetchable_of (by decide), by decide, by decide⟩,
    ⟨quiet_of (by decide), fetchable_of (by decide), by decide, by decide⟩⟩

theorem witness_interrupts_at_boundaries :
    (let s : State := { State.reset with
        irq := [{ reset := false, ei := some 255, cpi := true }], psw := { Psw.reset with ie := true, ce := true } }
     s.offer.reset = false ∧ s.offer.ei = some 255 ∧ s.psw.ie = true) ∧
    (let s : State := { State.reset with
        irq := [{ reset := false, ei := some 0, cpi := true }], psw := { Psw.reset with ce := true } }
     s.offer.reset = false ∧ s.psw.ie = false ∧ s.psw.ce = true ∧ s.offer.cpi = true) ∧
    (let s := withCoproc3 { State.reset with psw := { Psw.reset with ce := true } } [] true
     s.offer.reset = false ∧ s.offer.ei = none ∧ s.psw.ce = true ∧
       ∃ k cp, s.coprocAt k = some cp ∧ cp.requestsCPI = true) ∧
    (let s : State := { State.reset with irq := [{ reset := false, ei := some 0, cpi := true }] }
     s.offer.reset = false ∧ s.psw.ie = false ∧ s.psw.ce = false) :=
  ⟨by decide, by decide, ⟨by decide, by decide, by decide, 3, _, rfl, rfl⟩, by decide⟩

theorem witness_reset_event :
    (user { State.reset with irq := [{ reset := true, ei := some 1, cpi := true }] }).offer.reset = true := by decide

theorem witness_vector_entries : State.reset.eitVector .ae = State.reset.eitVector .ae := rfl

/-- For `rte_returns_from_eit`, `privileged_instructions` and `user_access_refused`. -/
theorem witness_modes : State.reset.psw.pm = false ∧ (user State.reset).psw.pm = true := by decide

/-- One state in which every form of `address_exception` is misaligned, and the boundary for words. -/
theorem witness_address_exception :
    (let s : State := { withRegs State.reset [(2, 0x1001)] with lock := true }
     (s.eaReg 2).toNat % 4 ≠ 0 ∧ s.lock = true ∧ (s.eaPreInc 2).toNat % 4 ≠ 0 ∧ (s.eaPreDec 2).toNat % 4 ≠ 0 ∧
       (s.eaDisp 2 0x7FFE).toNat % 4 ≠ 0 ∧ (s.eaReg 2).toNat % 2 ≠ 0 ∧ (s.eaDisp 2 0x8000).toNat % 2 ≠ 0) ∧
    (let s := withRegs State.reset [(2, 0xFFFFFFFE)]
     (s.eaReg 2).toNat % 4 ≠ 0 ∧ (s.eaPreInc 2).toNat % 4 ≠ 0 ∧ (s.eaPreDec 2).toNat % 4 ≠ 0) ∧
    State.reset.lock = false := by decide

/-- The first address beyond user space, for each way to reach it. -/
theorem witness_user_access_refused :
    (let s : State := user { withRegs State.reset [(2, 0x80000000)] with lock := true }
     s.psw.pm = true ∧ s.lock = true ∧ 2147483648 ≤ (s.eaReg 2).toNat ∧ (s.eaReg 2).toNat % 4 = 0 ∧
       (s.eaReg 2).toNat % 2 = 0 ∧ 2147483648 ≤ (s.eaDisp 2 0).toNat ∧ (s.eaDisp 2 0).toNat % 4 = 0) ∧
    (let s := user (withRegs State.reset [(2, 0x7FFFFFFC), (3, 0x80000004)])
     2147483648 ≤ (s.eaPreInc 2).toNat ∧ (s.eaPreInc 2).toNat % 4 = 0 ∧
       2147483648 ≤ (s.eaPreDec 3).toNat ∧ (s.eaPreDec 3).toNat % 4 = 0) := by decide

/-- Control register numbers that name no register, for the statements on MVFC and MVTC. -/
theorem witness_unassigned_control_registers :
    (4 : BitVec 4) ∉ ([0, 1, 2, 3, 5, 6] : List (BitVec 4)) ∧ (7 : BitVec 4) ∉ ([0, 1, 2, 3, 5, 6] : List (BitVec 4)) ∧
      (15 : BitVec 4) ∉ ([0, 1, 2, 3, 5, 6] : List (BitVec 4)) := by decide

/-- Each clause: every bit of PSW that may be written, the lowest and the highest that may not; EVB with AT and the whole
field, with the nearest bit below it, and written already. -/
theorem witness_mvtc_writes_control_registers :
    (let s := withRegs State.reset [(1, 0x0000CDCD), (2, 0x00000002), (3, 0x80000000), (4, 0xFFFF0000), (5, 0x00008000)]
     s.psw.pm = false ∧ s.evbWritten = false ∧ s.getReg 1 &&& ~~~0x0000CDCD#32 = 0 ∧
       s.getReg 2 &&& ~~~0x0000CDCD#32 ≠ 0 ∧ s.getReg 3 &&& ~~~0x0000CDCD#32 ≠ 0 ∧
       s.getReg 4 &&& 0x0000FFFF#32 = 0 ∧ s.getReg 5 &&& 0x0000FFFF#32 ≠ 0) ∧
    (let s : State := { State.reset with evbWritten := true }
     s.psw.pm = false ∧ s.evbWritten = true) := by decide

/-- Each clause: every bit that SETPSW may set, and each of the three it may not. -/
theorem witness_psw_set_and_clear :
    State.reset.psw.pm = false ∧ (user State.reset).psw.pm = true ∧ 0xCD#8 &&& 0x32#8 = 0 ∧
      0x20#8 &&& 0x32#8 ≠ 0 ∧ 0x10#8 &&& 0x32#8 ≠ 0 ∧ 0x02#8 &&& 0x32#8 ≠ 0 := by decide

/-- Both division statements: a divisor of 0, the corner of DIV and REM, and an ordinary division beside it. -/
theorem witness_division :
    State.reset.getReg 2 = 0 ∧
    (let s := withRegs State.reset [(1, 0x80000000), (2, 0xFFFFFFFF)]
     s.getReg 1 = 0x80000000 ∧ s.getReg 2 = 0xFFFFFFFF ∧ s.getReg 2 ≠ 0) ∧
    (let s := withRegs State.reset [(1, 0x80000001), (2, 0xFFFFFFFF)]
     s.getReg 2 ≠ 0 ∧ ¬ (s.getReg 1 = 0x80000000 ∧ s.getReg 2 = 0xFFFFFFFF)) := by decide

theorem accessible_of {s : State} {ea : Word} {n : Nat}
    (h : ea.toNat % n = 0 ∧ (s.psw.pm = true → ea.toNat < 2147483648)) : Accessible s ea n := h

/-- `loads_results` and the stores: the last word, halfword and byte of user space in user mode, and of all in supervisor mode;
a misaligned address; equal and different registers. -/
theorem witness_accesses :
    (let s := user (withRegs State.reset [(2, 0x7FFFFFFC)])
     s.mem.wf = true ∧ Accessible s (s.eaReg 2) 4 ∧ Accessible s (s.eaDisp 2 2) 2 ∧ Accessible s (s.eaDisp 2 3) 1) ∧
    (let s := withRegs State.reset [(2, 0xFFFFFFFC)]
     s.mem.wf = true ∧ Accessible s (s.eaReg 2) 4 ∧ Accessible s (s.eaPreInc 2) 4 ∧ Accessible s (s.eaPreDec 2) 4 ∧
       Accessible s (s.eaDisp 2 2) 2 ∧ Accessible s (s.eaDisp 2 3) 1) ∧
    (let s := withRegs State.reset [(2, 0x1003)]
     (s.eaReg 2).toNat % 4 ≠ 0 ∧ (s.eaReg 2).toNat % 2 ≠ 0) ∧
    (1 : Reg) ≠ 2 ∧ (2 : Reg) = 2 :=
  ⟨⟨by decide, accessible_of (by decide), accessible_of (by decide), accessible_of (by decide)⟩,
    ⟨by decide, accessible_of (by decide), accessible_of (by decide), accessible_of (by decide),
      accessible_of (by decide), accessible_of (by decide)⟩, by decide, by decide, by decide⟩

theorem witness_lock_and_unlock :
    (let s : State := { withRegs State.reset [(2, 0x1000)] with lock := true }
     s.mem.wf = true ∧ s.lock = true ∧ Accessible s (s.eaReg 2) 4) ∧
    (let s : State := { withRegs State.reset [(2, 0x1002)] with lock := true }
     s.lock = true ∧ (s.eaReg 2).toNat % 4 ≠ 0) ∧
    State.reset.lock = false :=
  ⟨⟨by decide, by decide, accessible_of (by decide)⟩, by decide, by decide⟩

theorem witness_bit_set_and_clear :
    (let s := user (withRegs State.reset [(2, 0x80000000)])
     s.mem.wf = true ∧ Accessible s (s.eaDisp 2 0xFFFF) 1) ∧ (0 : BitVec 3) ≠ 7 :=
  ⟨⟨by decide, accessible_of (by decide)⟩, by decide⟩

theorem witness_unconditional_branches : State.reset.pc.toNat % 4 = 0 ∧ (start 0xFFFFFFFC 0).pc.toNat % 4 = 0 := by
  decide

theorem witness_skip_instructions :
    (carrySet State.reset).issue = .alone ∧ (carrySet State.reset).psw.c = true ∧ State.reset.psw.c = false ∧
      pairAllowed .sc (.addi 3 1) = true ∧ pairAllowed .snc (.macwhi 1 2) = true := by decide

theorem witness_rounding : ((1 : Nat) = 1 ∨ (1 : Nat) = 2) ∧ ((2 : Nat) = 1 ∨ (2 : Nat) = 2) := by decide

theorem witness_saturation : (0x0000#16 ≠ 0x0300#16 ∧ 0x0000#16 ≠ 0x0200#16) ∧
    (0x0301#16 ≠ 0x0300#16 ∧ 0x0301#16 ≠ 0x0200#16) := by decide

/-- A coprocessor that answers one command of each kind with CDE and carries the others out; and one that is absent. -/
theorem witness_coprocessor_instructions :
    (let s := withCoproc3 (withRegs State.reset [(1, 9)]) [.write 2 5 9, .read 2 5, .operate 1 2 5] false
     s.coprocAt 3 = some { content := 0, answersCDE := [.write 2 5 9, .read 2 5, .operate 1 2 5], requestsCPI := false } ∧
       CoprocCommand.write 2 5 (s.getReg 1) ∈ [CoprocCommand.write 2 5 9, .read 2 5, .operate 1 2 5] ∧
       CoprocCommand.read 2 6 ∉ [CoprocCommand.write 2 5 9, .read 2 5, .operate 1 2 5] ∧
       CoprocCommand.operate 1 2 6 ∉ [CoprocCommand.write 2 5 9, .read 2 5, .operate 1 2 5]) ∧
    State.reset.coprocAt 15 = none := by decide

theorem witness_fall_through : State.reset.issue = .alone ∧ (paired State.reset).issue ≠ .alone := by decide

/-- For the frames: an instruction that completes, and what it changes or does not. -/
theorem witness_branch_targets : ∃ t, exec (.bra8 0x7F) (start 0xFFFFFFFE 0) = .next t ∧ Instr.bra8 0x7F ≠ .rte :=
  ⟨_, rfl, by decide⟩

theorem witness_registers_frame :
    ∃ t, exec (.ldPost 1 15) State.reset = .next t ∧ Store.spu ∉ writtenRegs (.ldPost 1 15) State.reset :=
  ⟨_, rfl, by decide⟩

theorem witness_condition_bit_writers :
    ∃ t, exec (.cmpeq 0 0) State.reset = .next t ∧ t.psw.c ≠ State.reset.psw.c := ⟨_, rfl, by decide⟩

theorem witness_accumulators_frame :
    ∃ t, exec (.mvtaclo 1 .a1) (withRegs State.reset [(1, 7)]) = .next t ∧
      t.accBits .a1 ≠ (withRegs State.reset [(1, 7)]).accBits .a1 := ⟨_, rfl, by decide⟩

theorem witness_memory_frame :
    State.reset.mem.wf = true ∧ (∃ t, exec (.stPreDec 1 2) State.reset = .next t) ∧
      ∀ ea n, storeTarget (.stPreDec 1 2) State.reset = some (ea, n) →
        ¬ (ea.toNat ≤ 4294967291 ∧ 4294967291 < ea.toNat + n) := by
  refine ⟨by decide, ⟨_, rfl⟩, ?_⟩
  intro ea n h
  have e : storeTarget (.stPreDec 1 2) State.reset = some (0xFFFFFFFC, 4) := by decide
  rw [e] at h
  cases h
  decide

/-- User mode, with either stack pointer in use: a step that goes on, and one that enters an EIT. -/
theorem witness_user_mode_isolation :
    (let s := user (start 0x100 0x70007000)
     s.psw.pm = true ∧ s.offer.reset = false ∧ s.psw.sm = false ∧ ∃ t, step s = .next t) ∧
    (let s := user { start 0x100 0x10F77000 with psw := { Psw.reset with sm := true } }
     s.psw.pm = true ∧ s.offer.reset = false ∧ s.psw.sm = true ∧ ∃ t, step s = .next t) :=
  ⟨⟨by decide, by decide, by decide, _, rfl⟩, ⟨by decide, by decide, by decide, _, rfl⟩⟩

/-- The lowest and the highest aligned address; two equal memories. -/
theorem witness_memory_read_after_write :
    State.reset.mem.wf = true ∧ (0 : Word).toNat % 4 = 0 ∧ (0xFFFFFFFC : Word).toNat % 4 = 0 ∧
      (0xFFFFFFFE : Word).toNat % 2 = 0 ∧ Memory.wf [(0, 1), (4294967295, 2)] = true := by decide

theorem witness_register_views : (14 : Reg) ≠ 15 ∧ Acc.a0 ≠ .a1 := by decide

/-- Members that write different registers, with C written by none, by one or by the other. -/
theorem witness_pair_merges_writes :
    (∃ ta tb, pairAllowed (.mv 1 0) (.cmp 2 1) = true ∧ exec (.mv 1 0) (paired State.reset) = .next ta ∧
      exec (.cmp 2 1) (paired State.reset) = .next tb ∧ ta.issue = .paired ∧
      writesC (.cmp 2 1) = true ∧ writesC (.mv 1 0) = false ∧ Store.r 1 ∉ writtenRegs (.cmp 2 1) State.reset) ∧
    (∃ ta tb, pairAllowed (.cmp 1 0) (.mv 2 1) = true ∧ exec (.cmp 1 0) (paired State.reset) = .next ta ∧
      exec (.mv 2 1) (paired State.reset) = .next tb ∧ ta.issue = .paired ∧ writesC (.mv 2 1) = false ∧
      Store.r 2 ∈ writtenRegs (.mv 2 1) State.reset ∧ Store.r 2 ∉ writtenRegs (.cmp 1 0) State.reset) :=
  ⟨⟨_, _, by decide, rfl, rfl, by decide, by decide, by decide, by decide⟩,
    ⟨_, _, by decide, rfl, rfl, by decide, by decide, by decide, by decide⟩⟩

/-- Members that write one register, and members that both write C: the premises hold beside a collision too. -/
theorem witness_pair_merges_writes_collision :
    (∃ ta tb, pairAllowed (.mv 1 0) (.mv 1 2) = true ∧ exec (.mv 1 0) (paired State.reset) = .next ta ∧
      exec (.mv 1 2) (paired State.reset) = .next tb ∧ ta.issue = .paired ∧
      Store.r 1 ∈ writtenRegs (.mv 1 0) State.reset ∧ Store.r 1 ∈ writtenRegs (.mv 1 2) State.reset) ∧
    (∃ ta tb, pairAllowed (.cmp 1 0) (.cmp 2 1) = true ∧ exec (.cmp 1 0) (paired State.reset) = .next ta ∧
      exec (.cmp 2 1) (paired State.reset) = .next tb ∧ ta.issue = .paired ∧
      writesC (.cmp 1 0) = true ∧ writesC (.cmp 2 1) = true) :=
  ⟨⟨_, _, by decide, rfl, rfl, by decide, by decide, by decide⟩,
    ⟨_, _, by decide, rfl, rfl, by decide, by decide, by decide⟩⟩

/-- A member with AE, a member with PIE, and TRAP with a partner. -/
theorem witness_pair_exceptions :
    (let s := withRegs State.reset [(2, 0x1001)]
     s.issue = .alone ∧ pairAllowed (.ld 1 2) (.addi 3 1) = true ∧
       ∃ ta, exec (.ld 1 2) (paired s) = .next ta ∧ ta.issue = .aborted) ∧
    (let s := user State.reset
     s.issue = .alone ∧ pairAllowed .rte (.addi 3 1) = true ∧
       ∃ ta, exec .rte (paired s) = .next ta ∧ ta.issue = .aborted) ∧
    (State.reset.issue = .alone ∧ pairAllowed (.trap 1) (.addi 3 1) = true ∧
       ∃ tb, exec (.addi 3 1) (paired State.reset) = .next tb) :=
  ⟨⟨by decide, by decide, _, rfl, by decide⟩, ⟨by decide, by decide, _, rfl, by decide⟩,
    ⟨by decide, by decide, _, rfl⟩⟩

end Sys2Proof.Tests
end

section
/-!
SUPPORT. Everything an instruction can do, said once (`exec_mayEnd`): the writes it may make, the addresses it may go
on at, and the ways its execution can end. The frames and the invariant are inductions over these three.
-/

namespace Sys2Proof.Machine

/-! ## The writes, the next address and the end of an instruction -/

/-- State `u` is reached from `s` by writes that the instruction `i`, executed in `s`, may make: register cells, C and
accumulators by the lists of R76, R34 and R29, stored bytes where `storeTarget` says, PSW and the control registers in
supervisor mode only (R273), with the fixed bits of BPC and EVB 0. The pc and the issue mode are not written. -/
inductive MayWrite (i : Instr) (s : State) : State → Prop
  | start : MayWrite i s s
  | reg {u : State} (p : Store) (v : Word) :
      MayWrite i s u → p ∈ writtenRegs i s → MayWrite i s (u.writeStore p v)
  | cond {u : State} (b : Bool) : MayWrite i s u → writesC i = true → MayWrite i s (u.setC b)
  | acc {u : State} (a : Acc) (v : BitVec 64) :
      MayWrite i s u → writesAcc i a = true → MayWrite i s (u.writeAcc a v)
  | byte {u : State} (ea a : Word) (n : Nat) (b : Byte) :
      MayWrite i s u → storeTarget i s = some (ea, n) → ea.toNat ≤ a.toNat → a.toNat < ea.toNat + n →
        MayWrite i s (u.storeByte a b)
  | psw {u : State} (p : Psw) :
      MayWrite i s u → s.psw.pm = false → (writesC i = false → p.c = u.psw.c) → MayWrite i s { u with psw := p }
  | evb {u : State} (v : Word) :
      MayWrite i s u → s.psw.pm = false → v &&& 0x8000FFFF = 0 →
        MayWrite i s { u with evb := v, evbWritten := true }
  | bpc {u : State} (v : Word) :
      MayWrite i s u → s.psw.pm = false → v.getLsbD 0 = false → MayWrite i s { u with bpc := v }
  | lock {u : State} (b : Bool) : MayWrite i s u → MayWrite i s { u with lock := b }
  | coproc {u : State} (c : BitVec 4) (cp : Coproc) : MayWrite i s u → MayWrite i s (u.setCoproc c cp)
  | draw {u : State} (k : Nat) : MayWrite i s u → MayWrite i s (u.drawn k)

/-- Where an instruction that completes may go on: at the fall-through address (R66), at a word-aligned target
(R190 (c)), or, RTE alone, where BPC says (R226). -/
def MayGoTo (i : Instr) (s : State) (a : Word) : Prop :=
  a = s.fallThrough (BitVec.ofNat 32 i.size) ∨ a.toNat % 4 = 0 ∨ (i = .rte ∧ a = s.bpc &&& 0xFFFFFFFE)

/-- The ways in which an instruction can answer a next state: it completes, it cancels its partner (R210, R211), it
raises an exception (R279), or it is TRAP (R225). -/
inductive MayEnd (i : Instr) (s : State) : State → Prop
  | completes {u : State} {a : Word} : MayWrite i s u → MayGoTo i s a → MayEnd i s (u.goto a)
  | cancels : i = .sc ∨ i = .snc → s.issue = .paired → MayEnd i s { s.advance 2 with issue := .cancelsPartner }
  | raises (k : Eit) : k = .ae ∨ k = .pie ∨ k = .cde → MayEnd i s (s.eitEntry k s.pc).abortPair
  | traps (n : BitVec 4) : i = .trap n → MayEnd i s (s.eitEntry (.trap n) (s.fallThrough 2))

/-! ## Writes -/

variable {i : Instr} {s t u : State}

theorem MayWrite.pc_issue (h : MayWrite i s u) : u.pc = s.pc ∧ u.issue = s.issue := by
  induction h with
  | start => exact ⟨rfl, rfl⟩
  | reg | acc => simpa
  | cond _ _ _ ih | byte _ _ _ _ _ _ _ _ ih | psw _ _ _ _ ih | evb _ _ _ _ ih | bpc _ _ _ _ ih | lock _ _ ih
  | coproc _ _ _ ih | draw _ _ ih => exact ih

/-- A register by its number, before PSW is written. -/
theorem MayWrite.setReg (h : MayWrite i s u) {d : Reg} (hu : u.physReg d = s.physReg d)
    (hd : s.physReg d ∈ writtenRegs i s) (v : Word) : MayWrite i s (u.setReg d v) :=
  .reg _ v h (hu ▸ hd)

theorem MayWrite.storeByte (h : MayWrite i s u) {ea : Word} (ht : storeTarget i s = some (ea, 1)) (b : Byte) :
    MayWrite i s (u.storeByte ea b) :=
  .byte ea ea 1 b h ht (Nat.le_refl _) (by omega)

/-- Byte `k` of an aligned store of `n` bytes. -/
theorem MayWrite.storeByteAt (h : MayWrite i s u) {ea : Word} {n k : Nat} (ht : storeTarget i s = some (ea, n))
    (ha : ea.toNat % n = 0) (hn : n = 1 ∨ n = 2 ∨ n = 4) (hk : k < n) (b : Byte) :
    MayWrite i s (u.storeByte (ea + BitVec.ofNat 32 k) b) := by
  have hea := toNat_add_ofNat (aligned_fits ha hn hk)
  exact .byte ea _ n b h ht (by omega) (by omega)

theorem MayWrite.storeHalf (h : MayWrite i s u) {ea : Word} (ht : storeTarget i s = some (ea, 2))
    (ha : ea.toNat % 2 = 0) (v : Half) : MayWrite i s (u.storeHalf ea v) :=
  have h0 : MayWrite i s (u.storeByte ea (v.extractLsb' 8 8)) := .byte ea ea 2 _ h ht (Nat.le_refl _) (by omega)
  h0.storeByteAt (k := 1) ht ha (.inr (.inl rfl)) (by omega) _

theorem MayWrite.storeWord (h : MayWrite i s u) {ea : Word} (ht : storeTarget i s = some (ea, 4))
    (ha : ea.toNat % 4 = 0) (v : Word) : MayWrite i s (u.storeWord ea v) :=
  have h0 : MayWrite i s (u.storeByte ea (v.extractLsb' 24 8)) := .byte ea ea 4 _ h ht (Nat.le_refl _) (by omega)
  have h1 := h0.storeByteAt (k := 1) ht ha (.inr (.inr rfl)) (by omega) (v.extractLsb' 16 8)
  have h2 := h1.storeByteAt (k := 2) ht ha (.inr (.inr rfl)) (by omega) (v.extractLsb' 8 8)
  h2.storeByteAt (k := 3) ht ha (.inr (.inr rfl)) (by omega) (v.extractLsb' 0 8)

/-! ## Targets -/

theorem State.wordBase_aligned (s : State) : s.wordBase.toNat % 4 = 0 := by
  rw [s.wordBase_toNat, State.wordStart]
  omega

theorem State.targetReg_aligned (s : State) (b : Reg) : (s.targetReg b).toNat % 4 = 0 :=
  (s.goto (s.getReg b)).wordBase_aligned

/-- A word-aligned base and a displacement in words make a word-aligned target (R190 (a)). -/
theorem add_shiftLeft_two_aligned {base : Word} (h : base.toNat % 4 = 0) (d : Word) :
    (base + (d <<< 2)).toNat % 4 = 0 := by
  rw [BitVec.toNat_add, BitVec.toNat_shiftLeft, Nat.shiftLeft_eq]
  omega

theorem State.target8_aligned (s : State) (d : BitVec 8) : (s.target8 d).toNat % 4 = 0 :=
  add_shiftLeft_two_aligned s.wordBase_aligned _

theorem State.target16_aligned (s : State) (d : Half) : (s.target16 d).toNat % 4 = 0 :=
  add_shiftLeft_two_aligned s.wordBase_aligned _

theorem State.target24_aligned (s : State) (d : BitVec 24) : (s.target24 d).toNat % 4 = 0 :=
  add_shiftLeft_two_aligned s.wordBase_aligned _

/-! ## The shared meanings -/

/-- After its writes the instruction goes on at the fall-through address. -/
theorem MayWrite.advance (h : MayWrite i s u) {len : Word} (hlen : len = BitVec.ofNat 32 i.size) :
    MayEnd i s (u.advance len) := by
  obtain ⟨hpc, hissue⟩ := h.pc_issue
  exact .completes h (.inl (hlen ▸ State.fallThrough_congr hpc hissue len))

theorem MayWrite.result (h : MayWrite i s u) {d : Reg} {v len : Word} (hu : u.physReg d = s.physReg d)
    (hd : s.physReg d ∈ writtenRegs i s) (hlen : len = BitVec.ofNat 32 i.size) : MayEnd i s (u.result d v len) :=
  (h.setReg hu hd v).advance hlen

theorem mayEnd_resultC {c : Bool} {len : Word} (hc : writesC i = true) (hlen : len = BitVec.ofNat 32 i.size) :
    MayEnd i s (s.resultC c len) :=
  (MayWrite.start.cond c hc).advance hlen

/-- An instruction that writes C and a register (ADDV and its like). -/
theorem mayEnd_setC_result {c : Bool} {d : Reg} {v len : Word} (hc : writesC i = true)
    (hd : s.physReg d ∈ writtenRegs i s) (hlen : len = BitVec.ofNat 32 i.size) :
    MayEnd i s ((s.setC c).result d v len) :=
  (MayWrite.start.cond c hc).result (s.physReg_setC c d) hd hlen

theorem mayEnd_resultAcc {a : Acc} {v : BitVec 64} {len : Word} (ha : writesAcc i a = true)
    (hlen : len = BitVec.ofNat 32 i.size) : MayEnd i s (s.resultAcc a v len) :=
  (MayWrite.start.acc a v ha).advance hlen

/-- A jump to a word-aligned target. -/
theorem mayEnd_goto {a : Word} (ha : a.toNat % 4 = 0) : MayEnd i s (s.goto a) :=
  .completes .start (.inr (.inl ha))

/-- A call of a word-aligned target. -/
theorem mayEnd_link_goto {a : Word} (hr : s.physReg 14 ∈ writtenRegs i s) (ha : a.toNat % 4 = 0) :
    MayEnd i s (s.link.goto a) :=
  .completes (MayWrite.start.setReg rfl hr _) (.inr (.inl ha))

/-- A branch that is taken or falls through. -/
theorem branchIf_mayEnd {taken : Bool} {target len : Word} (h : branchIf taken target len s = .next t)
    (ha : target.toNat % 4 = 0) (hlen : len = BitVec.ofNat 32 i.size) : MayEnd i s t := by
  cases taken
  · cases h
    exact MayWrite.start.advance hlen
  · cases h
    exact mayEnd_goto ha

/-- A call writes R14 where it is taken. -/
theorem branchLinkIf_mayEnd {taken : Bool} {target len : Word} (h : branchLinkIf taken target len s = .next t)
    (hr : taken = true → s.physReg 14 ∈ writtenRegs i s) (ha : target.toNat % 4 = 0)
    (hlen : len = BitVec.ofNat 32 i.size) : MayEnd i s t := by
  cases taken
  · cases h
    exact MayWrite.start.advance hlen
  · cases h
    exact mayEnd_link_goto (hr rfl) ha

/-- A guarded access: AE, or the effect of an access that may be made. -/
theorem withAccess_mayEnd {ea : Word} {n : Nat} {e : Result} (h : withAccess ea n s e = .next t)
    (he : Accessible s ea n → e = .next t → MayEnd i s t) : MayEnd i s t := by
  obtain ⟨hacc, h⟩ | rfl := withAccess_next h
  · exact he hacc h
  · exact .raises .ae (.inl rfl)

theorem loadInto_mayEnd {d : Reg} {ea v len : Word} {n : Nat} (h : loadInto d ea n v len s = .next t)
    (hd : s.physReg d ∈ writtenRegs i s) (hlen : len = BitVec.ofNat 32 i.size) : MayEnd i s t :=
  withAccess_mayEnd h fun _ h => by
    cases h
    exact MayWrite.start.result rfl hd hlen

/-- A guarded store with no update. -/
theorem store_mayEnd {ea : Word} {n : Nat} {len : Word} (h : withAccess ea n s (.next (u.advance len)) = .next t)
    (hu : ea.toNat % n = 0 → MayWrite i s u) (hlen : len = BitVec.ofNat 32 i.size) : MayEnd i s t :=
  withAccess_mayEnd h fun hacc h => by
    cases h
    exact (hu hacc.1).advance hlen

/-- A guarded access with update of the base register. -/
theorem withUpdate_mayEnd {ea : Word} {n : Nat} {d b : Reg} {v len : Word}
    (h : withAccess ea n s (withUpdate d b ((u.setReg b v).advance len)) = .next t)
    (hu : ea.toNat % n = 0 → MayWrite i s u) (hp : u.physReg b = s.physReg b)
    (hb : s.physReg b ∈ writtenRegs i s) (hlen : len = BitVec.ofNat 32 i.size) : MayEnd i s t :=
  withAccess_mayEnd h fun hacc h => by
    obtain ⟨-, rfl⟩ := withUpdate_next.1 h
    exact ((hu hacc.1).setReg hp hb v).advance hlen

theorem divideBy_mayEnd {d x : Reg} {n : Int} (h : divideBy d x n s = .next t)
    (hd : s.physReg d ∈ writtenRegs i s) (hlen : 4 = BitVec.ofNat 32 i.size) : MayEnd i s t := by
  unfold divideBy at h
  split at h
  · cases h
    exact MayWrite.start.advance hlen
  · cases h
    exact MayWrite.start.result rfl hd hlen

theorem divideWordBy_mayEnd {d x : Reg} {n : Int} (h : divideWordBy d x n s = .next t)
    (hd : s.physReg d ∈ writtenRegs i s) (hlen : 4 = BitVec.ofNat 32 i.size) : MayEnd i s t := by
  unfold divideWordBy at h
  split at h
  · cases h
    exact (MayWrite.start.draw 1).result (s.physReg_drawn 1 d) hd hlen
  · exact divideBy_mayEnd h hd hlen

/-- A command to a coprocessor that is carried out or answered with CDE. -/
theorem withCoproc_mayEnd {c : BitVec 4} {cmd : CoprocCommand} {e : Word → State → State}
    (h : withCoproc c cmd s e = .next t) (he : ∀ v u, MayWrite i s u → (∀ n, u.physReg n = s.physReg n) →
      MayEnd i s (e v u)) : MayEnd i s t := by
  obtain ⟨v, cp, rfl⟩ | rfl := withCoproc_next h
  · exact he v _ (.coproc c cp .start) (s.physReg_setCoproc c cp)
  · exact .raises .cde (.inr (.inr rfl))

/-- What a privileged instruction can answer: its effect in supervisor mode, or the entry of PIE (R273). -/
theorem privileged_next {e : Result} (h : privileged s e = .next t) :
    (s.psw.pm = false ∧ e = .next t) ∨ t = (s.eitEntry .pie s.pc).abortPair := by
  cases hp : s.psw.pm
  · exact .inl ⟨rfl, by rwa [privileged_supervisor hp] at h⟩
  · rw [privileged_user hp] at h
    cases h
    exact .inr rfl

theorem privileged_mayEnd {e : Result} (h : privileged s e = .next t)
    (he : s.psw.pm = false → e = .next t → MayEnd i s t) : MayEnd i s t := by
  obtain ⟨hp, h⟩ | rfl := privileged_next h
  · exact he hp h
  · exact .raises .pie (.inr (.inl rfl))

/-- SC and SNC: in a pair the partner may be cancelled, else nothing happens. -/
theorem skipPartnerIf_mayEnd {cancel : Bool} (h : skipPartnerIf cancel s = .next t) (hi : i = .sc ∨ i = .snc)
    (hlen : 2 = BitVec.ofNat 32 i.size) : MayEnd i s t := by
  unfold skipPartnerIf at h
  split at h
  next hp =>
    cases cancel
    · cases h
      exact MayWrite.start.advance hlen
    · cases h
      exact .cancels hi hp
  · cases h
    exact MayWrite.start.advance hlen

end Sys2Proof.Machine
end

section
/-!
SUPPORT. PSW and the control registers under CLRPSW, SETPSW and MVTC, and the case split over every instruction.
-/

namespace Sys2Proof.Machine

variable {i : Instr} {s t : State}

/-! ## C in PSW as a word -/

theorem getLsbD_zero_bitAt (b : Bool) (k : Nat) : (bitAt b k).getLsbD 0 = (b && decide (k = 0)) := by
  cases b
  · simp [bitAt]
  · cases k <;> simp [bitAt]

/-- C is bit 0 of PSW (R15). -/
theorem Psw.toWord_getLsbD_zero (p : Psw) : p.toWord.getLsbD 0 = p.c := by
  simp only [Psw.toWord, BitVec.getLsbD_or, getLsbD_zero_bitAt]
  simp

/-- CLRPSW without bit 0x01 keeps C (R223). -/
theorem Psw.clear_c {p : Psw} {m : BitVec 8} (h : m.getLsbD 0 = false) : (p.clear m).c = p.c := by
  simp only [Psw.clear, Psw.ofWord, BitVec.getLsbD_and, Psw.toWord_getLsbD_zero, BitVec.getLsbD_or, BitVec.getLsbD_not,
    BitVec.getLsbD_setWidth, h]
  simp

/-- SETPSW without bit 0x01 keeps C (R224). -/
theorem Psw.set_c {p : Psw} {m : BitVec 8} (h : m.getLsbD 0 = false) : (p.set m).c = p.c := by
  simp only [Psw.set, Psw.ofWord, BitVec.getLsbD_or, Psw.toWord_getLsbD_zero, BitVec.getLsbD_setWidth, h]
  simp

/-! ## Control registers -/

theorem and_evbMask_fixed (v : Word) : v &&& 0x7FFF0000 &&& 0x8000FFFF = 0 := by
  rw [BitVec.and_assoc]
  exact BitVec.and_zero

theorem and_evenMask_getLsbD_zero (v : Word) : (v &&& 0xFFFFFFFE).getLsbD 0 = false := by
  rw [BitVec.getLsbD_and]
  exact Bool.and_false _

/-- The write of a control register is one that MVTC may make. -/
theorem writeCR_mayWrite {cr : BitVec 4} {src : Reg} {v : Word} (h : writeCR cr v s = .ok t)
    (hp : s.psw.pm = false) : MayWrite (.mvtc cr src) s t := by
  unfold writeCR at h
  split at h
  next hn =>
    split at h
    · cases h
      refine .psw _ .start hp fun hc => ?_
      have hcr : cr = 0 := BitVec.eq_of_toNat_eq hn
      simp [writesC, hcr] at hc
    · cases h
  next =>
    cases h
    exact .start
  next hn =>
    cases h
    have hcr : cr = 2 := BitVec.eq_of_toNat_eq hn
    exact .reg .spi v .start (by simp [writtenRegs, hcr])
  next hn =>
    cases h
    have hcr : cr = 3 := BitVec.eq_of_toNat_eq hn
    exact .reg .spu v .start (by simp [writtenRegs, hcr])
  next =>
    split at h
    · cases h
    · split at h
      · cases h
      · cases h
        exact .evb _ .start hp (and_evbMask_fixed v)
  next =>
    cases h
    exact .bpc _ .start hp (and_evenMask_getLsbD_zero v)
  next => cases h

/-- MVTC writes a control register in supervisor mode. -/
theorem execMvtc_mayEnd {cr : BitVec 4} {src : Reg} (h : execMvtc cr src s = .next t) :
    MayEnd (.mvtc cr src) s t :=
  privileged_mayEnd h fun hp h => by
    split at h
    next hw =>
      cases h
      exact (writeCR_mayWrite hw hp).advance rfl
    next => cases h

theorem execSetpsw_mayEnd {m : BitVec 8} (h : execSetpsw m s = .next t) : MayEnd (.setpsw m) s t :=
  privileged_mayEnd h fun hp h => by
    split at h
    · cases h
      exact (MayWrite.start (i := .setpsw m)).psw _ hp Psw.set_c |>.advance rfl
    · cases h

theorem execClrpsw_mayEnd {m : BitVec 8} (h : execClrpsw m s = .next t) : MayEnd (.clrpsw m) s t :=
  privileged_mayEnd h fun hp h => by
    cases h
    exact (MayWrite.start (i := .clrpsw m)).psw _ hp Psw.clear_c |>.advance rfl

/-- RTE writes PSW and goes where BPC says. -/
theorem execRte_mayEnd (h : execRte s = .next t) : MayEnd .rte s t :=
  privileged_mayEnd h fun hp h => by
    cases h
    have hw : MayWrite .rte s { s with psw := s.psw.returnFromEit } := MayWrite.start.psw _ hp (by simp [writesC])
    exact .completes hw (.inr (.inr ⟨rfl, rfl⟩))

/-! ## Instructions with a meaning of their own -/

/-- MUL writes its destination and leaves both accumulators free (R167). -/
theorem execMul_mayEnd {d x : Reg} (h : execMul d x s = .next t) : MayEnd (.mul d x) s t := by
  cases h
  have hreg := (MayWrite.start (i := .mul d x) (s := s)).setReg rfl (.head _)
    (BitVec.ofInt 32 ((s.getReg d).toInt * (s.getReg x).toInt))
  have hacc := (hreg.acc .a0 ((Config.freeAcc s.draws).setWidth 64) rfl).acc .a1
    ((Config.freeAcc (s.draws + 1)).setWidth 64) rfl
  have hend := (hacc.draw 2).advance (len := 2) rfl
  have hwidth (v : BitVec 56) : (v.setWidth 64).setWidth 56 = v := by
    rw [BitVec.setWidth_setWidth_of_le v (by omega), BitVec.setWidth_eq]
  simp only [State.writeAcc, hwidth] at hend
  exact hend

theorem execLock_mayEnd {d x : Reg} (h : execLock d x s = .next t) : MayEnd (.lock d x) s t :=
  withAccess_mayEnd h fun _ h => by
    cases h
    exact (MayWrite.start.lock true).result rfl (.head _) rfl

/-- UNLOCK stores only where LOCK is set, and clears it (R110). -/
theorem execUnlock_mayEnd {d x : Reg} (h : execUnlock d x s = .next t) : MayEnd (.unlock d x) s t := by
  unfold execUnlock at h
  split at h
  next hl =>
    exact store_mayEnd h (fun ha => .lock false (MayWrite.start.storeWord (by simp [storeTarget, hl]) ha _)) rfl
  next =>
    cases h
    exact (MayWrite.start.lock false).advance rfl

theorem execLdPost_mayEnd {d x : Reg} (h : execLdPost d x s = .next t) : MayEnd (.ldPost d x) s t :=
  withUpdate_mayEnd h (fun _ => MayWrite.start.setReg rfl (.head _) _) (s.physReg_setReg d _ x)
    (.tail _ (.head _)) rfl

theorem execJl_mayEnd {x : Reg} (h : execJl x s = .next t) : MayEnd (.jl x) s t := by
  unfold execJl at h
  split at h
  · cases h
  · cases h
    exact mayEnd_link_goto (.head _) (s.targetReg_aligned x)

theorem execMvfcp_mayEnd {d : Reg} {x c : BitVec 4} {m : BitVec 8} (h : execMvfcp d x c m s = .next t) :
    MayEnd (.mvfcp d x c m) s t := by
  unfold execMvfcp at h
  exact withCoproc_mayEnd h fun _ _ hu hp => hu.result (hp d) (.head _) rfl

theorem execMvtcp_mayEnd {x : Reg} {d c : BitVec 4} {m : BitVec 8} (h : execMvtcp x d c m s = .next t) :
    MayEnd (.mvtcp x d c m) s t := by
  unfold execMvtcp at h
  exact withCoproc_mayEnd h fun _ _ hu _ => hu.advance rfl

theorem execOpecp_mayEnd {d x c : BitVec 4} {m : BitVec 8} (h : execOpecp d x c m s = .next t) :
    MayEnd (.opecp d x c m) s t := by
  unfold execOpecp at h
  exact withCoproc_mayEnd h fun _ _ hu _ => hu.advance rfl

theorem execMvfc_mayEnd {d : Reg} {cr : BitVec 4} (h : execMvfc d cr s = .next t) : MayEnd (.mvfc d cr) s t := by
  unfold execMvfc at h
  split at h
  · cases h
    exact MayWrite.start.result rfl (.head _) rfl
  · cases h

/-! ## Every instruction -/

/-- Everything an instruction can do. -/
theorem exec_mayEnd (h : exec i s = .next t) : MayEnd i s t := by
  cases i with
  | sub d _ | neg d _ | add d _ | not d _ | and d _ | xor d _ | or d _ | srl d _ | sra d _ | sll d _ | mv d _
  | addi d _ | srli d _ | srai d _ | slli d _ | mvfachi d _ | mvfaclo d _ | mvfacmi d _ | ldi8 d _ | satb d _
  | sath d _ | add3 d _ _ | and3 d _ _ | xor3 d _ _ | or3 d _ _ | srl3 d _ _ | sra3 d _ _ | sll3 d _ _ | ldi16 d _
  | seth d _ | ld24 d _ =>
    cases h
    exact MayWrite.start.result rfl (.head _) rfl
  | subv d _ | subx d _ | addv d _ | addx d _ | addv3 d _ _ =>
    cases h
    exact mayEnd_setC_result rfl (.head _) rfl
  | cmp | cmpu | cmpeq | cmpz | pcmpbz | btst | cmpi | cmpui =>
    cases h
    exact mayEnd_resultC rfl rfl
  | mulhi _ _ a | mullo _ _ a | machi _ _ a | maclo _ _ a | mvtachi _ a | mvtaclo _ a | rach a _ _ | rac a _ _ =>
    cases h
    exact mayEnd_resultAcc (decide_eq_true rfl) rfl
  | mulwhi | mulwlo | macwhi | macwlo | mulwu1 | macwu1 | maclh1 | msblo | sadd =>
    cases h
    exact mayEnd_resultAcc rfl rfl
  | ldb d _ | ldub d _ | ldh d _ | lduh d _ | ld d _ | ldbDisp d _ _ | ldubDisp d _ _ | ldhDisp d _ _
  | lduhDisp d _ _ | ldDisp d _ _ => exact loadInto_mayEnd h (.head _) rfl
  | stb | stbDisp | bset | bclr => exact store_mayEnd h (fun _ => MayWrite.start.storeByte rfl _) rfl
  | sth | sthDisp => exact store_mayEnd h (fun ha => MayWrite.start.storeHalf rfl ha _) rfl
  | st | stDisp => exact store_mayEnd h (fun ha => MayWrite.start.storeWord rfl ha _) rfl
  | stbPost => exact withUpdate_mayEnd h (fun _ => MayWrite.start.storeByte rfl _) rfl (.head _) rfl
  | sthPost => exact withUpdate_mayEnd h (fun ha => MayWrite.start.storeHalf rfl ha _) rfl (.head _) rfl
  | stPreInc | stPreDec => exact withUpdate_mayEnd h (fun ha => MayWrite.start.storeWord rfl ha _) rfl (.head _) rfl
  | div | rem => exact divideWordBy_mayEnd h (.head _) rfl
  | divb | divh | divu | divub | divuh | remb | remh | remu | remub | remuh =>
    exact divideBy_mayEnd h (.head _) rfl
  | bc8 d | bnc8 d => exact branchIf_mayEnd h (s.target8_aligned d) rfl
  | bc24 d | bnc24 d => exact branchIf_mayEnd h (s.target24_aligned d) rfl
  | beq _ _ d | bne _ _ d | beqz _ d | bnez _ d | bltz _ d | bgez _ d | blez _ d | bgtz _ d =>
    exact branchIf_mayEnd h (s.target16_aligned d) rfl
  | jc x | jnc x => exact branchIf_mayEnd h (s.targetReg_aligned x) rfl
  | bra8 d =>
    cases h
    exact mayEnd_goto (s.target8_aligned d)
  | bra24 d =>
    cases h
    exact mayEnd_goto (s.target24_aligned d)
  | jmp x =>
    cases h
    exact mayEnd_goto (s.targetReg_aligned x)
  | bl8 d =>
    cases h
    exact mayEnd_link_goto (.head _) (s.target8_aligned d)
  | bl24 d =>
    cases h
    exact mayEnd_link_goto (.head _) (s.target24_aligned d)
  | bcl8 d => exact branchLinkIf_mayEnd h (fun hc => by simp [writtenRegs, hc]) (s.target8_aligned d) rfl
  | bcl24 d => exact branchLinkIf_mayEnd h (fun hc => by simp [writtenRegs, hc]) (s.target24_aligned d) rfl
  | bncl8 d =>
    refine branchLinkIf_mayEnd h (fun hc => ?_) (s.target8_aligned d) rfl
    rw [Bool.not_eq_true'] at hc
    simp [writtenRegs, hc]
  | bncl24 d =>
    refine branchLinkIf_mayEnd h (fun hc => ?_) (s.target24_aligned d) rfl
    rw [Bool.not_eq_true'] at hc
    simp [writtenRegs, hc]
  | jl => exact execJl_mayEnd h
  | nop =>
    cases h
    exact MayWrite.start.advance rfl
  | sc => exact skipPartnerIf_mayEnd h (.inl rfl) rfl
  | snc => exact skipPartnerIf_mayEnd h (.inr rfl) rfl
  | mul => exact execMul_mayEnd h
  | mvfc => exact execMvfc_mayEnd h
  | mvtc => exact execMvtc_mayEnd h
  | setpsw => exact execSetpsw_mayEnd h
  | clrpsw => exact execClrpsw_mayEnd h
  | rte => exact execRte_mayEnd h
  | trap n =>
    cases h
    exact .traps n rfl
  | lock => exact execLock_mayEnd h
  | unlock => exact execUnlock_mayEnd h
  | ldPost => exact execLdPost_mayEnd h
  | mvfcp => exact execMvfcp_mayEnd h
  | mvtcp => exact execMvtcp_mayEnd h
  | opecp => exact execOpecp_mayEnd h

end Sys2Proof.Machine
end

section
/-!
SUPPORT. What follows for every instruction from `exec_mayEnd`: the frames on register cells, on C and on the
accumulators, and that the invariant is kept.
-/

namespace Sys2Proof.Machine

variable {i : Instr} {s t u : State}

/-! ## Frames -/

theorem MayWrite.readStore_eq (h : MayWrite i s u) {p : Store} (hp : p ∉ writtenRegs i s) :
    u.readStore p = s.readStore p := by
  induction h with
  | start => rfl
  | reg q v _ hq ih =>
    have hpq : p ≠ q := fun e => hp (e ▸ hq)
    rw [State.readStore_writeStore, if_neg hpq, ih]
  | cond | acc | byte | coproc | draw => simpa
  | psw | evb | bpc | lock => rwa [State.readStore_congr rfl rfl rfl]

theorem MayWrite.cond_eq (h : MayWrite i s u) (hc : writesC i = false) : u.psw.c = s.psw.c := by
  induction h with
  | start => rfl
  | cond _ _ hw => exact absurd (hw.symm.trans hc) Bool.noConfusion
  | psw _ _ _ hp ih => exact (hp hc).trans ih
  | reg | acc => simpa
  | byte _ _ _ _ _ _ _ _ ih | evb _ _ _ _ ih | bpc _ _ _ _ ih | lock _ _ ih | coproc _ _ _ ih | draw _ _ ih => exact ih

theorem State.accBits_congr (h0 : t.acc0 = s.acc0) (h1 : t.acc1 = s.acc1) (a : Acc) : t.accBits a = s.accBits a := by
  cases a
  · exact h0
  · exact h1

theorem MayWrite.accBits_eq (h : MayWrite i s u) {a : Acc} (ha : writesAcc i a = false) :
    u.accBits a = s.accBits a := by
  induction h with
  | start => rfl
  | acc b v _ hb ih =>
    have hab : a ≠ b := fun e => by simp [e, hb] at ha
    rw [State.accBits_writeAcc, if_neg hab, ih]
  | reg p v _ _ ih => exact (State.accBits_congr (by simp) (by simp) a).trans ih
  | cond _ _ _ ih | byte _ _ _ _ _ _ _ _ ih | psw _ _ _ _ ih | evb _ _ _ _ ih | bpc _ _ _ _ ih | lock _ _ ih
  | coproc _ _ _ ih | draw _ _ ih => exact (State.accBits_congr rfl rfl a).trans ih

/-- Register cells outside the list of R76 keep their values, exceptions included. -/
theorem MayEnd.readStore_eq (h : MayEnd i s t) {p : Store} (hp : p ∉ writtenRegs i s) :
    t.readStore p = s.readStore p := by
  cases h with
  | completes hw => rw [State.readStore_goto, hw.readStore_eq hp]
  | cancels => exact State.readStore_congr rfl rfl rfl p
  | raises k => rw [State.readStore_abortPair, State.readStore_eitEntry]
  | traps n => rw [State.readStore_eitEntry]

/-- C changes in an instruction that writes C, or by an EIT entry. -/
theorem MayEnd.cond_eq_or_entered (h : MayEnd i s t) (hc : writesC i = false) :
    t.psw.c = s.psw.c ∨ ∃ k, t.pc = s.eitVector k ∧ t.psw = pswAfterEntry s.psw := by
  cases h with
  | completes hw => exact .inl (hw.cond_eq hc)
  | cancels => exact .inl rfl
  | raises k => exact .inr ⟨k, rfl, rfl⟩
  | traps n => exact .inr ⟨.trap n, rfl, rfl⟩

/-- The accumulators that an instruction does not write keep their values, exceptions included. -/
theorem MayEnd.accBits_eq (h : MayEnd i s t) {a : Acc} (ha : writesAcc i a = false) :
    t.accBits a = s.accBits a := by
  cases h with
  | completes hw => exact (State.accBits_congr rfl rfl a).trans (hw.accBits_eq ha)
  | cancels | raises | traps => exact State.accBits_congr rfl rfl a

/-! ## Register numbers and accumulators as they read -/

/-- R15 is SPI or SPU by SM (R12). -/
theorem State.physReg_fifteen (s : State) : s.physReg 15 = if s.psw.sm then .spu else .spi := rfl

/-- R0 to R14 have cells of their own (R11). -/
theorem State.physReg_ne_fifteen (s : State) {n : Reg} (hn : n ≠ 15) : ∃ m, s.physReg n = .r m := by
  have hlt : n.toNat < 15 := by bv_omega
  exact ⟨⟨n.toNat, hlt⟩, dif_pos hlt⟩

/-- The 64-bit view of an accumulator has the value of its stored bits (R29). -/
theorem State.readAcc_toInt (s : State) (a : Acc) : (s.readAcc a).toInt = (s.accBits a).toInt :=
  BitVec.toInt_signExtend_of_le (by omega)

/-! ## Even addresses (R13) -/

theorem getLsbD_zero_eq_false_iff (v : Word) : v.getLsbD 0 = false ↔ v.toNat % 2 = 0 := by
  simp [BitVec.getLsbD, Nat.testBit_zero]

theorem size_eq_two_or_four (i : Instr) : i.size = 2 ∨ i.size = 4 := by
  unfold Instr.size
  cases encode i
  · exact .inl rfl
  · exact .inr rfl

theorem State.fallThrough_alone (hs : s.issue = .alone) (len : Word) : s.fallThrough len = s.pc + len := by
  simp only [State.fallThrough, hs]

/-- A member of a pair is followed by the word after the pair (R78). -/
theorem State.fallThrough_in_pair (hs : s.issue ≠ .alone) (len : Word) : s.fallThrough len = s.wordBase + 4 := by
  unfold State.fallThrough
  split
  next h => exact absurd h hs
  next => rfl

theorem State.fallThrough_even {len : Word} (hs : s.pc.getLsbD 0 = false) (hlen : len.toNat % 2 = 0) :
    (s.fallThrough len).getLsbD 0 = false := by
  rw [getLsbD_zero_eq_false_iff] at hs ⊢
  by_cases hi : s.issue = .alone
  · rw [State.fallThrough_alone hi, BitVec.toNat_add]
    omega
  · have hbase := s.wordBase_aligned
    rw [State.fallThrough_in_pair hi, BitVec.toNat_add, show (4 : Word).toNat = 4 from rfl]
    omega

theorem MayGoTo.even {a : Word} (h : MayGoTo i s a) (hs : s.pc.getLsbD 0 = false) : a.getLsbD 0 = false := by
  obtain rfl | ha | ⟨-, rfl⟩ := h
  · refine State.fallThrough_even hs ?_
    obtain hi | hi := size_eq_two_or_four i <;> rw [hi] <;> rfl
  · rw [getLsbD_zero_eq_false_iff]
    omega
  · exact and_evenMask_getLsbD_zero _

/-- Every vector entry is word aligned (R280). -/
theorem State.eitVector_even (s : State) (k : Eit) : (s.eitVector k).getLsbD 0 = false := by
  rw [State.eitVector, BitVec.getLsbD_append]
  rfl

/-! ## The invariant

Between the two halves of a pair's step the issue mode is not `alone`. What the other clauses of `State.Inv` say of such
a state is `(settle s).Inv`. -/

theorem inv_iff_settle : s.Inv ↔ (settle s).Inv ∧ s.issue = .alone :=
  ⟨fun h => ⟨{ h with alone := rfl }, h.alone⟩, fun ⟨h, hi⟩ => { h with alone := hi }⟩

theorem State.storeByte_keeps_inv (h : (settle s).Inv) (a : Word) (b : Byte) : (settle (s.storeByte a b)).Inv :=
  { h with
    memWf := State.storeByte_wf h.memWf a b
    storedWf := insertAddr_wfFrom h.storedWf (Nat.zero_le _) a.isLt }

theorem State.eitEntry_keeps_inv (h : (settle s).Inv) (k : Eit) (b : Word) : (settle (s.eitEntry k b)).Inv :=
  { h with
    pcEven := s.eitVector_even k
    bpcEven := and_evenMask_getLsbD_zero b }

/-- A state keeps the invariant's clauses where the fields they speak of are as before. -/
theorem settle_inv_congr (h : (settle s).Inv) (hpc : t.pc = s.pc) (hbpc : t.bpc = s.bpc) (hevb : t.evb = s.evb)
    (hw : t.evbWritten = s.evbWritten) (hmem : t.mem = s.mem) (hstored : t.stored = s.stored) : (settle t).Inv where
  pcEven := by simpa [hpc] using h.pcEven
  bpcEven := by simpa [hbpc] using h.bpcEven
  evbFixed := by simpa [hevb] using h.evbFixed
  evbOnce := by simpa [hevb, hw] using h.evbOnce
  memWf := by simpa [hmem] using h.memWf
  storedWf := by simpa [hstored] using h.storedWf
  alone := rfl

theorem MayWrite.keeps_inv (h : MayWrite i s u) (hs : (settle s).Inv) : (settle u).Inv := by
  induction h with
  | start => exact hs
  | reg _ _ _ _ ih | acc _ _ _ _ ih => apply settle_inv_congr ih <;> simp
  | byte ea a n b _ _ _ _ ih => exact State.storeByte_keeps_inv ih a b
  | evb v _ _ hv ih => exact { ih with evbFixed := hv, evbOnce := fun hw => nomatch hw }
  | bpc v _ _ hv ih => exact { ih with bpcEven := hv }
  | cond _ _ _ ih | psw _ _ _ _ ih | lock _ _ ih | coproc _ _ _ ih | draw _ _ ih =>
    exact settle_inv_congr ih rfl rfl rfl rfl rfl rfl

/-- An instruction keeps the clauses of the invariant, on its own and in a pair. -/
theorem MayEnd.keeps_inv (h : MayEnd i s t) (hs : (settle s).Inv) : (settle t).Inv := by
  cases h with
  | completes hw ha => exact { hw.keeps_inv hs with pcEven := ha.even hs.pcEven }
  | cancels => exact { hs with pcEven := State.fallThrough_even hs.pcEven rfl }
  | raises k => exact State.eitEntry_keeps_inv hs k s.pc
  | traps n => exact State.eitEntry_keeps_inv hs _ _

/-- An instruction on its own leaves nothing half done. -/
theorem MayEnd.alone (h : MayEnd i s t) (hs : s.issue = .alone) : t.issue = .alone := by
  cases h with
  | completes hw => exact hw.pc_issue.2.trans hs
  | cancels _ hp => exact absurd (hs.symm.trans hp) (by decide)
  | raises => simp [hs]
  | traps => exact hs

theorem exec_keeps_inv (hs : s.Inv) (h : exec i s = .next t) : t.Inv := by
  obtain ⟨hinv, halone⟩ := inv_iff_settle.1 hs
  have hend := exec_mayEnd h
  exact inv_iff_settle.2 ⟨hend.keeps_inv hinv, hend.alone halone⟩

/-- The raising of an exception by the fetched code (R274). -/
theorem raise_keeps_inv {k : Eit} (hs : s.Inv) (h : raise k s = .next t) : t.Inv := by
  cases h
  exact inv_iff_settle.2 ⟨State.eitEntry_keeps_inv (inv_iff_settle.1 hs).1 k s.pc, by simp [hs.alone]⟩

/-- The merge of C draws a free value or none, and writes C or leaves it (R77). -/
theorem mergeC_eq (a b : Instr) (fromB t : State) : ∃ c k, mergeC a b fromB t = (t.drawn k).setC c := by
  unfold mergeC
  split
  · split
    · exact ⟨_, 1, rfl⟩
    · exact ⟨_, 0, rfl⟩
  · exact ⟨t.psw.c, 0, rfl⟩

/-- The merge lays registers, C and accumulators over A's state: the invariant speaks of none of them. -/
theorem mergePair_keeps_inv {a b : Instr} {ta tb : State} (h : (settle ta).Inv) :
    (settle (mergePair a b s ta tb)).Inv := by
  obtain ⟨hpc, -, hmem, hstored, -, hevb, hw, hbpc, -⟩ := mergeRegs_frame (writtenRegs a s) tb (writtenRegs b s)
    { ta with draws := max ta.draws tb.draws }
  obtain ⟨c, k, hc⟩ := mergeC_eq a b tb
    (mergeRegs (writtenRegs a s) tb (writtenRegs b s) { ta with draws := max ta.draws tb.draws })
  unfold mergePair
  simp only [hc]
  exact settle_inv_congr h hpc hbpc hevb hw hmem hstored

/-- A pair keeps the invariant: it ends in A's state, or in that state with B's writes laid over it. -/
theorem runPair_keeps_inv {a b : Instr} (hs : s.Inv) (h : runPair a b s = .next t) : t.Inv := by
  obtain ⟨ta, ha, hcase⟩ := runPair_next h
  have hta : (settle ta).Inv := (exec_mayEnd ha).keeps_inv (inv_iff_settle.1 hs).1
  obtain ⟨-, rfl⟩ | ⟨-, -, tb, -, rfl⟩ := hcase
  · exact hta
  · exact mergePair_keeps_inv hta

theorem execDecoded_keeps_inv {o : Option Instr} (hs : s.Inv) (h : execDecoded o s = .next t) : t.Inv := by
  cases o
  · exact raise_keeps_inv hs h
  · exact exec_keeps_inv hs h

theorem execPair_keeps_inv {ha hb : Half} (hs : s.Inv) (h : execPair ha hb s = .next t) : t.Inv := by
  unfold execPair at h
  split at h
  · split at h
    · exact runPair_keeps_inv hs h
    · cases h
  · exact raise_keeps_inv hs h

theorem execNext_keeps_inv (hs : s.Inv) (h : execNext s = .next t) : t.Inv := by
  unfold execNext at h
  split at h
  next p _ =>
    cases p
    · exact execDecoded_keeps_inv hs h
    · exact execDecoded_keeps_inv hs h
    · exact execPair_keeps_inv hs h
  next => cases h

/-- Reset leaves a state that satisfies the invariant (R33). -/
theorem State.reset_satisfies_inv : State.reset.Inv where
  pcEven := rfl
  bpcEven := rfl
  evbFixed := rfl
  evbOnce := fun _ => rfl
  memWf := rfl
  storedWf := rfl
  alone := rfl

theorem State.passBoundary_keeps_inv (h : s.Inv) : s.passBoundary.Inv := { h with alone := rfl }

/-- A reset keeps memory and has the other values of `State.reset` (R300). -/
theorem State.resetEvent_keeps_inv (h : s.Inv) : s.resetEvent.Inv := { State.reset_satisfies_inv with memWf := h.memWf }

end Sys2Proof.Machine
end

section
/-!
The statements of the family of 10_state.md.
-/

namespace Sys2Proof.Machine

/-- Settles O3: a step is a reset, the entry of an interrupt, or an instruction or a pair (`step_cases`), and each keeps
the invariant. -/
theorem stepKeepsInv : Obligations.step_keeps_inv := by
  unfold Obligations.step_keeps_inv
  intro s t hs h
  have hpass := State.passBoundary_keeps_inv hs
  obtain ⟨-, hstep⟩ | ⟨-, k, -, hstep⟩ | ⟨-, hstep⟩ := step_cases s
  · obtain rfl : s.passBoundary.resetEvent = t := by simpa [hstep] using h
    exact State.resetEvent_keeps_inv hpass
  · obtain rfl : s.passBoundary.eitEntry k s.pc = t := by simpa [hstep] using h
    have hsettled := (inv_iff_settle.1 hpass).1
    exact inv_iff_settle.2 ⟨State.eitEntry_keeps_inv hsettled k s.pc, rfl⟩
  · exact execNext_keeps_inv hpass (hstep ▸ h)

/-- Settles O52, for an instruction that completes and for one that enters an EIT handler. -/
theorem registersFrame : Obligations.registers_frame := by
  unfold Obligations.registers_frame
  intro i s t h p hp
  exact (exec_mayEnd h).readStore_eq hp

/-- Settles O53: an instruction that is not in R34's list changes C only by an EIT entry; TRAP, which writes C, makes
one. -/
theorem conditionBitWriters : Obligations.condition_bit_writers := by
  unfold Obligations.condition_bit_writers
  intro i s t h hne
  cases hw : writesC i with
  | false =>
    have hentered := ((exec_mayEnd h).cond_eq_or_entered hw).resolve_left hne
    simp only [hentered, or_true]
  | true =>
    cases i with
    | cmp | cmpeq | cmpi | cmpu | cmpui | cmpz | pcmpbz | addv | addv3 | addx | subv | subx | btst | rte => simp
    | mvtc cr r =>
      obtain rfl : cr = 0 := of_decide_eq_true hw
      simp
    | setpsw m =>
      have hm : m.getMsbD 7 = true := hw
      simp [hm]
    | clrpsw m =>
      have hm : m.getMsbD 7 = true := hw
      simp [hm]
    | trap n =>
      cases h
      have hentered : ∃ k, (s.eitEntry (.trap n) (s.fallThrough 2)).pc = s.eitVector k ∧
        (s.eitEntry (.trap n) (s.fallThrough 2)).psw = pswAfterEntry s.psw := ⟨.trap n, rfl, rfl⟩
      simp only [hentered, or_true]
    | _ => cases hw

/-- Settles O54: the accumulators that R29 does not list for an instruction are in its frame. -/
theorem accumulatorsFrame : Obligations.accumulators_frame := by
  unfold Obligations.accumulators_frame
  intro i s t a h hne
  have hw : writesAcc i a = true := by
    by_contra hw
    exact hne ((exec_mayEnd h).accBits_eq (Bool.eq_false_iff.2 hw))
  cases i with
  | mul => simp
  | machi _ _ b | maclo _ _ b | mulhi _ _ b | mullo _ _ b | mvtachi _ b | mvtaclo _ b | rac b _ _ | rach b _ _ =>
    obtain rfl : b = a := of_decide_eq_true hw
    simp
  | sadd | macwhi | macwlo | mulwhi | mulwlo | msblo =>
    obtain rfl : a = .a0 := of_decide_eq_true hw
    simp
  | maclh1 | macwu1 | mulwu1 =>
    obtain rfl : a = .a1 := of_decide_eq_true hw
    simp
  | _ => cases hw

/-- Settles O1. -/
theorem resetValues : Obligations.reset_values := by
  unfold Obligations.reset_values
  refine ⟨rfl, rfl, rfl, rfl, rfl, rfl, ?_, rfl, rfl, rfl, rfl⟩
  intro v hv
  cases hv
  decide

/-- Settles O2. -/
theorem resetInv : Obligations.reset_inv := State.reset_satisfies_inv

/-- Settles O50: a member of a pair goes on after the word that holds the pair. -/
theorem fallThrough : Obligations.fall_through := by
  unfold Obligations.fall_through
  intro s
  refine ⟨fun hs => ?_, fun hs len => ?_⟩
  · rw [State.fallThrough_alone hs, State.fallThrough_alone hs]
    constructor <;> bv_omega
  · rw [State.fallThrough_in_pair hs, ← s.wordBase_toNat]
    bv_omega

/-- Settles O58, by the cell that a register number names and the 56 stored bits of an accumulator. -/
theorem registerViews : Obligations.register_views := by
  unfold Obligations.register_views
  intro s n m v a b x
  refine ⟨?getR15, ?spi, ?spu, fun hn => ?others, ?readBack, ?value, fun hb => ?otherAcc⟩
  case getR15 =>
    rw [State.getReg, State.physReg_fifteen]
    cases s.psw.sm <;> rfl
  case spi =>
    rw [State.setReg, State.physReg_fifteen]
    cases s.psw.sm <;> rfl
  case spu =>
    rw [State.setReg, State.physReg_fifteen]
    cases s.psw.sm <;> rfl
  case others =>
    obtain ⟨k, hk⟩ := s.physReg_ne_fifteen hn
    rw [State.setReg, hk]
    exact ⟨rfl, rfl⟩
  case readBack => simp only [State.getReg_setReg, State.physReg_inj]
  case value => rw [State.readAcc_toInt, State.accBits_writeAcc, if_pos rfl, BitVec.toInt_setWidth]
  case otherAcc => rw [State.readAcc, State.accBits_writeAcc, if_neg hb, State.readAcc]

end Sys2Proof.Machine
end

section
/-!
SUPPORT. Memory as an instruction sees it: which bytes a store may change, what aligned reads return after a store, the
misaligned access, and the fetch of one instruction.
-/

namespace Sys2Proof.Machine

variable {i : Instr} {s t u : State}

/-! ## The bytes outside a store (R49) -/

theorem MayWrite.mem_wf (h : MayWrite i s u) (hs : s.mem.wf = true) : u.mem.wf = true := by
  induction h with
  | start => exact hs
  | byte _ a _ b _ _ _ _ ih => exact State.storeByte_wf ih a b
  | reg | acc => simpa
  | cond _ _ _ ih | psw _ _ _ _ ih | evb _ _ _ _ ih | bpc _ _ _ _ ih | lock _ _ ih | coproc _ _ _ ih
  | draw _ _ ih => exact ih

/-- The byte at `a` is none of those that the instruction stores, by `storeTarget`. -/
def OutsideStore (i : Instr) (s : State) (a : Nat) : Prop :=
  ∀ ea n, storeTarget i s = some (ea, n) → ¬ (ea.toNat ≤ a ∧ a < ea.toNat + n)

/-- The writes of an instruction leave every byte outside `storeTarget` as it was. -/
theorem MayWrite.readByte_eq (h : MayWrite i s u) (hs : s.mem.wf = true) {a : Nat} (ha : OutsideStore i s a) :
    u.mem.readByte a = s.mem.readByte a := by
  induction h with
  | start => rfl
  | byte ea x n b hw ht hlo hhi ih =>
    have hne : a ≠ x.toNat := fun e => ha ea n ht (e ▸ ⟨hlo, hhi⟩)
    rw [State.mem_storeByte_read (hw.mem_wf hs), if_neg hne, ih]
  | reg | acc => simpa
  | cond _ _ _ ih | psw _ _ _ _ ih | evb _ _ _ _ ih | bpc _ _ _ _ ih | lock _ _ ih | coproc _ _ _ ih
  | draw _ _ ih => exact ih

/-- However an instruction ends, it leaves every byte outside `storeTarget` as it was; an exception leaves them all. -/
theorem MayEnd.readByte_eq (h : MayEnd i s t) (hs : s.mem.wf = true) {a : Nat} (ha : OutsideStore i s a) :
    t.mem.readByte a = s.mem.readByte a := by
  cases h with
  | completes hw => exact hw.readByte_eq hs ha
  | cancels | raises | traps => rfl

/-! ## Aligned reads (R41, R42) -/

/-- No address in an aligned word wraps. -/
theorem toNat_add_of_wordAligned {a : Word} (ha : a.toNat % 4 = 0) :
    (a + 1).toNat = a.toNat + 1 ∧ (a + 2).toNat = a.toNat + 2 ∧ (a + 3).toNat = a.toNat + 3 :=
  have h (k : Nat) (hk : k < 4) := toNat_add_ofNat (aligned_fits ha (.inr (.inr rfl)) hk)
  ⟨h 1 (by omega), h 2 (by omega), h 3 (by omega)⟩

/-- An aligned word by its bytes. -/
theorem Memory.readWord_aligned (m : Memory) {a : Word} (ha : a.toNat % 4 = 0) :
    m.readWord a = m.readByte a.toNat ++ m.readByte (a.toNat + 1) ++ m.readByte (a.toNat + 2) ++
      m.readByte (a.toNat + 3) := by
  obtain ⟨h1, h2, h3⟩ := toNat_add_of_wordAligned ha
  rw [Memory.readWord, h1, h2, h3]

/-- An aligned halfword by its bytes. -/
theorem Memory.readHalf_aligned (m : Memory) {a : Word} (ha : a.toNat % 2 = 0) :
    m.readHalf a = m.readByte a.toNat ++ m.readByte (a.toNat + 1) := by
  have h1 : (a + 1).toNat = a.toNat + 1 := toNat_add_ofNat (aligned_fits ha (.inr (.inl rfl)) (k := 1) (by omega))
  rw [Memory.readHalf, h1]

/-- Four bytes in a row make the two halfwords of a word (R42). -/
theorem append_bytes (b0 b1 b2 b3 : Byte) :
    (b0 ++ b1 ++ b2 ++ b3 : BitVec (8 + 8 + 8 + 8)) = (b0 ++ b1 : Half) ++ (b2 ++ b3 : Half) :=
  BitVec.append_assoc (x₁ := b0 ++ b1) (x₂ := b2) (x₃ := b3)

/-- Byte `k` of an aligned word that has been stored is its bits 31-8k to 24-8k (R42). -/
theorem State.storeWord_readByte_add (hs : s.mem.wf = true) {a : Word} (ha : a.toNat % 4 = 0) (v : Word) {k : Nat}
    (hk : k < 4) : (s.storeWord a v).mem.readByte (a.toNat + k) = v.extractLsb' (24 - 8 * k) 8 := by
  rw [(State.storeWord_bytes hs ha v).bytesIn _ ⟨by omega, by simpa using hk⟩, Nat.add_sub_cancel_left]
  obtain rfl | rfl | rfl | rfl : k = 0 ∨ k = 1 ∨ k = 2 ∨ k = 3 := by omega
  all_goals rfl

/-- Byte `k` of an aligned halfword that has been stored. -/
theorem State.storeHalf_readByte_add (hs : s.mem.wf = true) {a : Word} (ha : a.toNat % 2 = 0) (v : Half) {k : Nat}
    (hk : k < 2) : (s.storeHalf a v).mem.readByte (a.toNat + k) = v.extractLsb' (8 - 8 * k) 8 := by
  rw [(State.storeHalf_bytes hs ha v).bytesIn _ ⟨by omega, by simpa using hk⟩, Nat.add_sub_cancel_left]
  obtain rfl | rfl : k = 0 ∨ k = 1 := by omega
  all_goals rfl

theorem State.storeWord_readWord (hs : s.mem.wf = true) {a : Word} (ha : a.toNat % 4 = 0) (v : Word) :
    (s.storeWord a v).mem.readWord a = v := by
  have h0 : (s.storeWord a v).mem.readByte a.toNat = v.extractLsb' 24 8 :=
    State.storeWord_readByte_add (k := 0) hs ha v (by omega)
  have hbyte := fun k hk => State.storeWord_readByte_add (k := k) hs ha v hk
  rw [Memory.readWord_aligned _ ha, h0, hbyte 1 (by omega), hbyte 2 (by omega), hbyte 3 (by omega)]
  exact (append_bytes ..).trans (word_of_bytes v)

theorem State.storeHalf_readHalf (hs : s.mem.wf = true) {a : Word} (ha : a.toNat % 2 = 0) (v : Half) :
    (s.storeHalf a v).mem.readHalf a = v := by
  have h0 : (s.storeHalf a v).mem.readByte a.toNat = v.extractLsb' 8 8 :=
    State.storeHalf_readByte_add (k := 0) hs ha v (by omega)
  rw [Memory.readHalf_aligned _ ha, h0, State.storeHalf_readByte_add (k := 1) hs ha v (by omega)]
  exact half_of_bytes v

/-- The halfwords of an aligned word, read on their own (R45). -/
theorem Memory.readHalf_of_readWord (m : Memory) {a : Word} (ha : a.toNat % 4 = 0) :
    m.readHalf a = upperHalf (m.readWord a) ∧ m.readHalf (a + 2) = lowerHalf (m.readWord a) := by
  obtain ⟨-, h2, -⟩ := toNat_add_of_wordAligned ha
  have hword := (m.readWord_aligned ha).trans (append_bytes ..)
  rw [hword, m.readHalf_aligned (by omega), m.readHalf_aligned (by omega), h2]
  exact ⟨(extract_left (v := 16) (w := 16) _ _).symm, (extract_right (v := 16) (w := 16) _ _).symm⟩

/-! ## Misaligned accesses (R46, R111) -/

/-- An instruction whose meaning is a guarded access raises AE at a misaligned address. -/
theorem raises_ae_of_misaligned {ea : Word} {n : Nat} {e : Result} (h : exec i s = withAccess ea n s e)
    (ha : ea.toNat % n ≠ 0) : Raises i s .ae :=
  raises_of (h.trans (withAccess_misaligned ha e))

/-- UNLOCK with LOCK = 1 stores by a guarded access (R110). -/
theorem execUnlock_locked (h : s.lock = true) (d b : Reg) :
    execUnlock d b s = withAccess (s.eaReg b) 4 s
      (.next (({ s.storeWord (s.eaReg b) (s.getReg d) with lock := false } : State).advance 2)) :=
  if_pos h

/-- UNLOCK with LOCK = 0 completes without an access (R110). -/
theorem execUnlock_unlocked (h : s.lock = false) (d b : Reg) :
    execUnlock d b s = .next (({ s with lock := false } : State).advance 2) :=
  if_neg (by simp [h])

theorem State.unlock_advance_leaves (s : State) (len : Word) :
    Leaves s (({ s with lock := false } : State).advance len) (s.fallThrough len) (lock := false) := by
  apply Leaves.withoutStore
  case hregs => exact fun p => State.readStore_congr rfl rfl rfl p
  all_goals rfl

/-! ## The instruction that a list of bytes decodes to (R65) -/

/-- What `decodeBytes` has read: a halfword with MSB 0, or a word with MSB 1. -/
theorem decodeBytes_ok {b0 b1 : Byte} {rest rest' : List Byte} (h : decodeBytes (b0 :: b1 :: rest) = .ok (i, rest')) :
    (msb (b0 ++ b1 : Half) = false ∧ decode16 (b0 ++ b1) = some i ∧ rest' = rest) ∨
      (msb (b0 ++ b1 : Half) = true ∧ ∃ b2 b3, rest = b2 :: b3 :: rest' ∧
        decode32 ((b0 ++ b1 : Half) ++ (b2 ++ b3 : Half)) = some i) := by
  unfold decodeBytes at h
  simp only at h
  split at h
  next hm =>
    split at h
    · split at h
      next hd =>
        cases h
        exact .inr ⟨hm, _, _, rfl, hd⟩
      next => cases h
    · cases h
  next hm =>
    split at h
    next hd =>
      cases h
      exact .inl ⟨Bool.eq_false_iff.2 hm, hd, rfl⟩
    next => cases h

/-- The MSB of a halfword is that of its first byte. -/
theorem msb_append (b0 b1 : Byte) : msb (b0 ++ b1 : Half) = b0.msb := by
  rw [msb, BitVec.getLsbD_append, BitVec.msb_eq_getLsbD_last]
  rfl

/-! ## The fetch of one instruction (R66) -/

/-- The word at the pc by its bytes. -/
theorem State.readWord_wordBase (s : State) :
    s.mem.readWord s.wordBase = (s.codeByte 0 ++ s.codeByte 1 : Half) ++ (s.codeByte 2 ++ s.codeByte 3 : Half) := by
  have h := (s.mem.readWord_aligned s.wordBase_aligned).trans (append_bytes ..)
  rw [s.wordBase_toNat] at h
  exact h

theorem State.upperHalf_readWord_wordBase (s : State) :
    upperHalf (s.mem.readWord s.wordBase) = s.codeByte 0 ++ s.codeByte 1 := by
  rw [s.readWord_wordBase]
  exact extract_left (v := 16) (w := 16) _ _

theorem State.lowerHalf_readWord_wordBase (s : State) :
    lowerHalf (s.mem.readWord s.wordBase) = s.codeByte 2 ++ s.codeByte 3 := by
  rw [s.readWord_wordBase]
  exact extract_right (v := 16) (w := 16) _ _

theorem getLsbD_one_eq (v : Word) : v.getLsbD 1 = decide (v.toNat / 2 % 2 = 1) := by
  rw [BitVec.getLsbD, Nat.testBit_eq_decide_div_mod_eq]

/-- The fetch at a word-aligned pc executes what the length decision says (R65). -/
theorem execNext_at_word {p : Parcel} (hparcel : parcelAtWord (s.mem.readWord s.wordBase) = p)
    (hf : s.fetchable 0 p.size) (hp : s.pc.toNat % 4 = 0) : execNext s = execParcel p s := by
  subst hparcel
  have hbit : s.pc.getLsbD 1 = false := by
    rw [getLsbD_one_eq, decide_eq_false_iff_not]
    omega
  rw [execNext, State.fetch_at_word hf hbit]

/-- A word with MSB 1 at a quiet boundary is one 32-bit instruction. -/
theorem step_runs_wide (hq : s.quiet) (hf : s.fetchable 0 4) (hp : s.pc.toNat % 4 = 0)
    (h0 : msb (s.codeByte 0 ++ s.codeByte 1 : Half) = true) :
    step s = execDecoded
      (decode32 ((s.codeByte 0 ++ s.codeByte 1 : Half) ++ (s.codeByte 2 ++ s.codeByte 3 : Half))) s.passBoundary := by
  have hparcel : parcelAtWord (s.mem.readWord s.wordBase) = .wide (s.mem.readWord s.wordBase) := by
    rw [parcelAtWord, s.upperHalf_readWord_wordBase, if_pos h0]
  rw [← s.readWord_wordBase, step_quiet hq]
  exact execNext_at_word (s := s.passBoundary) hparcel hf hp

/-- The upper half of a word with both MSBs 0, at a quiet boundary, is one 16-bit instruction. -/
theorem step_runs_upper (hq : s.quiet) (hf : s.fetchable 0 2) (hp : s.pc.toNat % 4 = 0)
    (h0 : msb (s.codeByte 0 ++ s.codeByte 1 : Half) = false) (h2 : msb (s.codeByte 2 ++ s.codeByte 3 : Half) = false) :
    step s = execDecoded (decode16 (s.codeByte 0 ++ s.codeByte 1)) s.passBoundary := by
  have hparcel : parcelAtWord (s.mem.readWord s.wordBase) = .single (s.codeByte 0 ++ s.codeByte 1) := by
    rw [parcelAtWord, s.upperHalf_readWord_wordBase, s.lowerHalf_readWord_wordBase, if_neg (by simp [h0]),
      if_neg (by simp [h2])]
  rw [step_quiet hq]
  exact execNext_at_word (s := s.passBoundary) hparcel hf hp

/-- The lower half of such a word is one 16-bit instruction too. -/
theorem step_runs_lower (hq : s.quiet) (hf : s.fetchable 2 2) (hp : s.pc.toNat % 4 = 2)
    (h0 : msb (s.codeByte 0 ++ s.codeByte 1 : Half) = false) (h2 : msb (s.codeByte 2 ++ s.codeByte 3 : Half) = false) :
    step s = execDecoded (decode16 (s.codeByte 2 ++ s.codeByte 3)) s.passBoundary := by
  have hbit : s.pc.getLsbD 1 = true := by
    rw [getLsbD_one_eq, decide_eq_true_iff]
    omega
  have hparcel : parcelAtLowerHalf (s.mem.readWord s.wordBase) = .ok (.single (s.codeByte 2 ++ s.codeByte 3)) := by
    rw [parcelAtLowerHalf, s.upperHalf_readWord_wordBase, s.lowerHalf_readWord_wordBase, if_neg (by simp [h0, h2])]
  have hfetch := (State.fetch_at_lower_half (s := s.passBoundary) hf hbit).trans hparcel
  rw [step_quiet hq, execNext, hfetch]
  rfl

end Sys2Proof.Machine
end

section
/-!
The statements of the family of 20_memory.md.
-/

namespace Sys2Proof.Machine

/-- Settles O55: an instruction stores only where `storeTarget` says, and an exception stores nothing. -/
theorem memoryFrame : Obligations.memory_frame := by
  unfold Obligations.memory_frame
  intro i s t hs h a ha
  exact (exec_mayEnd h).readByte_eq hs ha

/-- Settles O57, for a word, a halfword and a byte, and the canonical form. -/
theorem memoryReadAfterWrite : Obligations.memory_read_after_write := by
  unfold Obligations.memory_read_after_write
  refine ⟨fun s a v hs ha => ?word, fun s a v hs ha => ?half, fun s a v hs => ?byte, fun m n hm hn h => ?canonical⟩
  case word =>
    have hword := State.storeWord_readWord hs ha v
    obtain ⟨hupper, hlower⟩ := (s.storeWord a v).mem.readHalf_of_readWord ha
    rw [hword] at hupper hlower
    refine ⟨fun k hk => State.storeWord_readByte_add hs ha v hk, hword, hupper, hlower, State.storeWord_wf hs a v,
      fun x hx => (State.storeWord_bytes hs ha v).bytesOut x ?_⟩
    simp only [InBytes, List.length_cons, List.length_nil]
    omega
  case half =>
    refine ⟨State.storeHalf_readByte_add (k := 0) hs ha v (by omega),
      State.storeHalf_readByte_add (k := 1) hs ha v (by omega), State.storeHalf_readHalf hs ha v,
      State.storeHalf_wf hs a v, fun x hx => (State.storeHalf_bytes hs ha v).bytesOut x ?_⟩
    simp only [InBytes, List.length_cons, List.length_nil]
    omega
  case byte =>
    refine ⟨?_, State.storeByte_wf hs a v, fun x hx => ?_⟩
    · rw [State.mem_storeByte_read hs, if_pos rfl]
    · rw [State.mem_storeByte_read hs, if_neg hx]
  case canonical => exact Memory.eq_of_readByte hm hn h

/-- Settles O18: each form is a guarded access at its effective address, but for UNLOCK with LOCK = 0. -/
theorem addressException : Obligations.address_exception := by
  unfold Obligations.address_exception
  intro s d b q
  refine ⟨fun ha => ⟨?ld, ?ldPost, ?lock, ?st, fun hl => ?unlock⟩, fun hl => ?unlocked, fun ha => ?stPreInc,
    fun ha => ?stPreDec, fun ha => ⟨?ldDisp, ?stDisp⟩, fun ha => ⟨?ldh, ?lduh, ?sth, ?sthPost⟩,
    fun ha => ⟨?ldhDisp, ?lduhDisp, ?sthDisp⟩⟩
  case unlock => exact raises_ae_of_misaligned (execUnlock_locked hl d b) ha
  case unlocked => exact ⟨_, execUnlock_unlocked hl d b, s.unlock_advance_leaves 2⟩
  all_goals exact raises_ae_of_misaligned rfl ha

/-- Settles O7: the bytes that decode to the instruction make the halfword or the word that the step fetches. -/
theorem stepRunsDecoded : Obligations.step_runs_decoded := by
  unfold Obligations.step_runs_decoded
  intro s i hq
  refine ⟨fun hf hp hd => ?wide, fun hf hp hm2 hd => ?upper, fun hf hp hm0 hm2 hd => ?lower⟩
  case wide =>
    obtain ⟨-, -, hrest⟩ | ⟨h0, b2, b3, hrest, hi⟩ := decodeBytes_ok hd
    · cases hrest
    · cases hrest
      rw [step_runs_wide hq hf hp h0, hi]
      rfl
  case upper =>
    obtain ⟨h0, hi, -⟩ | ⟨-, b2, b3, hrest, -⟩ := decodeBytes_ok hd
    · rw [step_runs_upper hq hf hp h0 ((msb_append _ _).trans hm2), hi]
      rfl
    · exact absurd (congrArg List.length hrest) (by simp)
  case lower =>
    obtain ⟨-, hi, -⟩ | ⟨-, b2, b3, hrest, -⟩ := decodeBytes_ok hd
    · rw [step_runs_lower hq hf hp ((msb_append _ _).trans hm0) ((msb_append _ _).trans hm2), hi]
      rfl
    · cases hrest

end Sys2Proof.Machine
end

section
/-!
SUPPORT. The two opcode maps read both ways (R69, R72): the code of a well-formed instruction decodes to it
(`Code.decode_encode`), and no other code does (`encodesAs_of_decode`).
-/

namespace Sys2Proof

variable {i : Instr} {h : Half} {w : Word}

/-- What the opcode maps read from a code: R69 for a halfword, R72 for a word. -/
def Code.decode : Code → Option Instr
  | .half h => decode16 h
  | .word w => decode32 w

/-- `c` is the code of the instruction `i`, and `i` is well formed. -/
def Instr.EncodesAs (i : Instr) (c : Code) : Prop := i.wellFormed = true ∧ encode i = c

/-! ## The length of a code (R65) -/

theorem msb_eq_decide (h : Half) : msb h = decide (8 ≤ (opField h).toNat) := by
  rw [msb_eq_opField]
  exact BitVec.msb_eq_decide (opField h)

/-- R69 lists halfwords with MSB 0 only. -/
theorem msb_of_decode16 (hd : decode16 h = some i) : msb h = false := by
  unfold decode16 at hd
  split at hd
  case h_9 => cases hd
  all_goals
    next ho => rw [msb_eq_decide, ho]; rfl

/-- R72 lists words with MSB 1 only. -/
theorem msb_of_decode32 (hd : decode32 w = some i) : msb (upperHalf w) = true := by
  unfold decode32 at hd
  split at hd
  case h_8 => cases hd
  all_goals
    next ho => rw [msb_eq_decide, ho]; rfl

/-- The decoder reads from the bytes of a code what the opcode maps say of it, and leaves the bytes after it. -/
theorem decodeBytes_of_decode {c : Code} (hd : c.decode = some i) (rest : List Byte) :
    decodeBytes (c.bytes ++ rest) = .ok (i, rest) := by
  cases c with
  | half h =>
    rw [Code.decode] at hd
    rw [decodeBytes_half (msb_of_decode16 hd), hd]
  | word w =>
    rw [Code.decode] at hd
    rw [decodeBytes_word (msb_of_decode32 hd), hd]

theorem Code.bytes_half (b0 b1 : Byte) : (Code.half (b0 ++ b1)).bytes = [b0, b1] := by
  rw [Code.bytes, extract_left b0 b1, extract_right b0 b1]

theorem Code.bytes_word (b0 b1 b2 b3 : Byte) :
    (Code.word ((b0 ++ b1 : Half) ++ (b2 ++ b3 : Half))).bytes = [b0, b1, b2, b3] := by
  have hupper := extract_of_left (v := 16) (w := 16) (b0 ++ b1) (b2 ++ b3)
  have hlower := extract_of_right (v := 16) (w := 16) (b0 ++ b1) (b2 ++ b3)
  rw [Code.bytes, hupper 8 8, hupper 0 8, hlower 8 8 (by decide), hlower 0 8 (by decide), extract_left b0 b1,
    extract_right b0 b1, extract_left b2 b3, extract_right b2 b3]

/-- The bytes that the decoder takes are those of a code. -/
theorem decodeBytes_ok_code {bs rest : List Byte} (hd : decodeBytes bs = .ok (i, rest)) :
    ∃ c : Code, bs = c.bytes ++ rest ∧ c.decode = some i := by
  match bs with
  | [] | [_] => cases hd
  | b0 :: b1 :: tail =>
    obtain ⟨-, hi, rfl⟩ | ⟨-, b2, b3, rfl, hi⟩ := Machine.decodeBytes_ok hd
    · exact ⟨.half (b0 ++ b1), by rw [Code.bytes_half]; rfl, hi⟩
    · exact ⟨.word ((b0 ++ b1 : Half) ++ (b2 ++ b3 : Half)), by rw [Code.bytes_word]; rfl, hi⟩

/-! ## From an instruction to its code and back -/

/-- The first bit of a bit position's field R1 is 0. -/
theorem bitposR1_getElem_three (k : BitVec 3) : (bitposR1 k)[3] = false := by
  revert k; decide

theorem accOp2_toNat (a : Acc) (k : BitVec 3) : (accOp2 a k).toNat = (if a = .a1 then 8 else 0) + k.toNat := by
  cases a <;> revert k <;> decide

theorem accR2_toNat (a : Acc) (k : BitVec 2) : (accR2 a k).toNat = (if a = .a1 then 4 else 0) + k.toNat := by
  cases a <;> revert k <;> decide

/-- The destination field of RAC and RACH names its accumulator (R70). -/
theorem accOfR1_accR2 (a : Acc) : accOfR1 (accR2 a 0#2) = some a := by
  cases a <;> rfl

/-- The sub-opcode of an immediate shift: its own bits, and the first bit of the count. -/
theorem op2Field_pack16Imm5_toNat (a b : BitVec 4) (j : BitVec 3) (k : BitVec 5) :
    (op2Field (pack16Imm5 a b j k)).toNat = 2 * j.toNat + k.toNat / 16 := by
  rw [op2Field_pack16Imm5]
  revert j k; decide

/-- The code of each instruction, looked up in the row of R69 or R72 that lists it. -/
theorem Code.decode_encode (hw : i.wellFormed = true) : (encode i).decode = some i := by
  cases i with
  | subv | subx | sub | neg | cmp | cmpu | cmpeq | cmpz | pcmpbz | addv | addx | add | not | and | xor | or =>
    simp [encode, Code.decode, decode16, decode0]
  | btst => simp [encode, Code.decode, decode16, decode0, bitposR1_getElem_three]
  | srl | sra | sll | mul | mv | mvfc | mvtc | jc | jnc | jl | jmp | rte | trap =>
    simp [encode, Code.decode, decode16, decode1]
  | stb | stbPost | sth | sthPost | st | unlock | stPreInc | stPreDec | ldb | ldub | ldh | lduh | ld | lock
  | ldPost => simp [encode, Code.decode, decode16, decode2]
  | mulwhi | mulwlo | macwhi | macwlo => simp [encode, Code.decode, decode16, decode3]
  | mulhi _ _ a | mullo _ _ a | machi _ _ a | maclo _ _ a =>
    cases a <;> simp [encode, Code.decode, decode16, decode3, accOp2_toNat]
  | addi | ldi8 => simp [encode, Code.decode, decode16]
  | srli d k | srai d k | slli d k =>
    have hk : k.toNat / 16 = 0 ∨ k.toNat / 16 = 1 := by omega
    rcases hk with hk | hk <;> simp [encode, Code.decode, decode16, decode5, op2Field_pack16Imm5_toNat, hk]
  | mulwu1 | macwu1 | maclh1 | msblo | sadd => simp [encode, Code.decode, decode16, decode5]
  | mvtachi _ a | mvtaclo _ a | mvfachi _ a | mvfaclo _ a | mvfacmi _ a =>
    cases a <;> simp [encode, Code.decode, decode16, decode5, accR2_toNat]
  | rach d a n | rac d a n =>
    obtain rfl | rfl : n = 1 ∨ n = 2 := by simpa [Instr.wellFormed, Instr.roundShiftOk] using hw
    all_goals cases a <;>
      simp [encode, Code.decode, decode16, decode5, decodeRound, accOfR1_accR2, accR2_toNat, roundCode]
  | setpsw | clrpsw | bcl8 | bncl8 | bc8 | bnc8 | bl8 | bra8 => simp [encode, Code.decode, decode16, decode7]
  | nop | sc | snc => rfl
  | cmpi | cmpui | satb | sath | addv3 | add3 | and3 | xor3 | or3 => simp [encode, Code.decode, decode32, decode8]
  | div | divb | divh | divu | divub | divuh | rem | remb | remh | remu | remub | remuh =>
    simp [encode, Code.decode, decode32, decode9, decodeDivide]
  | srl3 | sra3 | sll3 | ldi16 => simp [encode, Code.decode, decode32, decode9]
  | stbDisp | sthDisp | stDisp | ldbDisp | ldubDisp | ldhDisp | lduhDisp | ldDisp =>
    simp [encode, Code.decode, decode32, decodeA]
  | bset | bclr => simp [encode, Code.decode, decode32, decodeA, bitposR1_getElem_three]
  | beq | bne | beqz | bnez | bltz | bgez | blez | bgtz => simp [encode, Code.decode, decode32, decodeB]
  | mvfcp | mvtcp | opecp | seth => simp [encode, Code.decode, decode32, decodeD]
  | ld24 => simp [encode, Code.decode, decode32]
  | bcl24 | bncl24 | bc24 | bnc24 | bl24 | bra24 => simp [encode, Code.decode, decode32, decodeF]

/-! ## A code that is known by its fields -/

theorem encodesAs_pack16 {a b c d : BitVec 4} (hw : i.wellFormed = true) (he : encode i = .half (pack16 a b c d))
    (ha : (opField h).toNat = a.toNat) (hb : r1Field h = b) (hc : (op2Field h).toNat = c.toNat) (hd : r2Field h = d) :
    i.EncodesAs (.half h) := by
  rw [← BitVec.eq_of_toNat_eq ha, ← hb, ← BitVec.eq_of_toNat_eq hc, ← hd, pack16_fields] at he
  exact ⟨hw, he⟩

theorem encodesAs_pack16Imm8 {a b : BitVec 4} {k : BitVec 8} (hw : i.wellFormed = true)
    (he : encode i = .half (pack16Imm8 a b k)) (ha : (opField h).toNat = a.toNat)
    (hb : (r1Field h).toNat = b.toNat) (hk : imm8Field h = k) : i.EncodesAs (.half h) := by
  rw [← BitVec.eq_of_toNat_eq ha, ← BitVec.eq_of_toNat_eq hb, ← hk, pack16Imm8_fields] at he
  exact ⟨hw, he⟩

/-- The sub-opcode of an immediate shift has three bits; the fourth belongs to the count. -/
theorem encodesAs_pack16Imm5 {a : BitVec 4} {j : BitVec 3} (hw : i.wellFormed = true)
    (he : encode i = .half (pack16Imm5 a (r1Field h) j (imm5Field h))) (ha : (opField h).toNat = a.toNat)
    (hj : (op2Field h).toNat / 2 = j.toNat) : i.EncodesAs (.half h) := by
  have hsub : h.extractLsb' 5 3 = j := by
    rw [← extract_extract h 4 4 1 3 (by decide)]
    apply BitVec.eq_of_toNat_eq
    rw [← hj, BitVec.extractLsb'_toNat, Nat.shiftRight_eq_div_pow, op2Field]
    omega
  rw [← BitVec.eq_of_toNat_eq ha, ← hsub, pack16Imm5_fields] at he
  exact ⟨hw, he⟩

theorem encodesAs_pack32 {a b c d : BitVec 4} {k : Half} (hw : i.wellFormed = true)
    (he : encode i = .word (pack32 a b c d k)) (ha : (opField (upperHalf w)).toNat = a.toNat)
    (hb : r1Field (upperHalf w) = b) (hc : (op2Field (upperHalf w)).toNat = c.toNat)
    (hd : r2Field (upperHalf w) = d) (hk : lowerHalf w = k) : i.EncodesAs (.word w) := by
  rw [← BitVec.eq_of_toNat_eq ha, ← hb, ← BitVec.eq_of_toNat_eq hc, ← hd, ← hk, pack32_fields] at he
  exact ⟨hw, he⟩

theorem pack32Imm24_fields (w : Word) :
    pack32Imm24 (opField (upperHalf w)) (r1Field (upperHalf w)) (imm24Field w) = w := by
  have ho : opField (upperHalf w) = w.extractLsb' 28 4 := extract_extract w 16 16 12 4 (by decide)
  have hr : r1Field (upperHalf w) = w.extractLsb' 24 4 := extract_extract w 16 16 8 4 (by decide)
  rw [ho, hr]
  unfold pack32Imm24 imm24Field
  rw [BitVec.extractLsb'_append_extractLsb'_eq_extractLsb' (by rfl)]
  exact (BitVec.extractLsb'_append_extractLsb'_eq_extractLsb' (by rfl)).trans BitVec.extractLsb'_eq_self

theorem encodesAs_pack32Imm24 {a b : BitVec 4} (hw : i.wellFormed = true)
    (he : encode i = .word (pack32Imm24 a b (imm24Field w))) (ha : (opField (upperHalf w)).toNat = a.toNat)
    (hb : (r1Field (upperHalf w)).toNat = b.toNat) : i.EncodesAs (.word w) := by
  rw [← BitVec.eq_of_toNat_eq ha, ← BitVec.eq_of_toNat_eq hb, pack32Imm24_fields] at he
  exact ⟨hw, he⟩

/-- The lower halfword of a coprocessor word whose constant field is 0 (R260). -/
theorem lowerHalf_of_coprocConst (hz : coprocConstField w = 0) :
    lowerHalf w = (cpidField w ++ (0 : BitVec 4) ++ instField w : Half) := by
  rw [← hz]
  unfold lowerHalf cpidField coprocConstField instField
  rw [BitVec.extractLsb'_append_extractLsb'_eq_extractLsb' (by rfl)]
  exact Eq.symm (BitVec.extractLsb'_append_extractLsb'_eq_extractLsb' (by rfl))

/-- A bit position whose first bit is 0 is the field R1. -/
theorem r1Field_of_bitpos (hm : (r1Field h).getLsbD 3 = false) : r1Field h = bitposR1 (bitposField h) := by
  have e : bitposField h = (r1Field h).extractLsb' 0 3 := (extract_extract h 8 4 0 3 (by decide)).symm
  rw [e]
  generalize r1Field h = d at hm
  revert d; decide

/-! ## The rows of R69 -/

theorem encodesAs_of_decode0 (ho : (opField h).toNat = 0) (hd : decode0 h = some i) : i.EncodesAs (.half h) := by
  unfold decode0 at hd
  simp only at hd
  split at hd
  case h_8 hc =>
    split at hd
    case h_3 => cases hd
    all_goals
      next hb =>
        cases hd
        exact encodesAs_pack16 rfl rfl ho (BitVec.eq_of_toNat_eq hb) hc rfl
  case h_16 hc =>
    split at hd
    · cases hd
    · next hb =>
      cases hd
      exact encodesAs_pack16 rfl rfl ho (r1Field_of_bitpos (by simpa using hb)) hc rfl
  case h_17 => cases hd
  all_goals
    next hc =>
      cases hd
      exact encodesAs_pack16 rfl rfl ho rfl hc rfl

theorem encodesAs_of_decode1 (ho : (opField h).toNat = 1) (hd : decode1 h = some i) : i.EncodesAs (.half h) := by
  unfold decode1 at hd
  simp only at hd
  split at hd
  case h_8 hc =>
    split at hd
    case h_5 => cases hd
    all_goals
      next hb =>
        cases hd
        exact encodesAs_pack16 rfl rfl ho (BitVec.eq_of_toNat_eq hb) hc rfl
  case h_9 hc =>
    split at hd
    · next hb hs =>
      cases hd
      exact encodesAs_pack16 rfl rfl ho (BitVec.eq_of_toNat_eq hb) hc (BitVec.eq_of_toNat_eq hs)
    · cases hd
  case h_10 hc =>
    split at hd
    · next hb =>
      cases hd
      exact encodesAs_pack16 rfl rfl ho (BitVec.eq_of_toNat_eq hb) hc rfl
    · cases hd
  case h_11 => cases hd
  all_goals
    next hc =>
      cases hd
      exact encodesAs_pack16 rfl rfl ho rfl hc rfl

theorem encodesAs_of_decode2 (ho : (opField h).toNat = 2) (hd : decode2 h = some i) : i.EncodesAs (.half h) := by
  unfold decode2 at hd
  simp only at hd
  split at hd
  case h_16 => cases hd
  all_goals
    next hc =>
      cases hd
      exact encodesAs_pack16 rfl rfl ho rfl hc rfl

theorem encodesAs_of_decode3 (ho : (opField h).toNat = 3) (hd : decode3 h = some i) : i.EncodesAs (.half h) := by
  unfold decode3 at hd
  simp only at hd
  split at hd
  case h_13 => cases hd
  all_goals
    next hc =>
      cases hd
      exact encodesAs_pack16 rfl rfl ho rfl hc rfl

theorem accOfR1_some {d : BitVec 4} {a : Acc} (hd : accOfR1 d = some a) : d = accR2 a 0 := by
  unfold accOfR1 at hd
  split at hd
  case h_3 => cases hd
  all_goals
    next hn =>
      cases hd
      exact BitVec.eq_of_toNat_eq hn

/-- What RAC and RACH are read from: two accumulator fields and a written immediate of 1 or 2 (R70, R248). -/
theorem decodeRound_some {mk : Acc → Acc → Nat → Instr} (hd : decodeRound mk h = some i) :
    ∃ d s n, i = mk d s n ∧ Instr.roundShiftOk n = true ∧ r1Field h = accR2 d 0 ∧
      r2Field h = accR2 s (roundCode n) := by
  unfold decodeRound at hd
  split at hd
  case h_5 => cases hd
  all_goals
    next hacc hs =>
      cases hd
      exact ⟨_, _, _, rfl, rfl, accOfR1_some hacc, BitVec.eq_of_toNat_eq hs⟩

theorem encodesAs_of_decode5 (ho : (opField h).toNat = 5) (hd : decode5 h = some i) : i.EncodesAs (.half h) := by
  unfold decode5 at hd
  simp only at hd
  split at hd
  case h_7 hc =>
    split at hd
    case h_5 => cases hd
    all_goals
      next hs =>
        cases hd
        exact encodesAs_pack16 rfl rfl ho rfl hc (BitVec.eq_of_toNat_eq hs)
  case h_8 hc | h_9 hc =>
    obtain ⟨d, s, n, rfl, hn, hb, hs⟩ := decodeRound_some hd
    exact encodesAs_pack16 hn rfl ho hb hc hs
  case h_14 hc =>
    split at hd
    · next hb hs =>
      cases hd
      exact encodesAs_pack16 rfl rfl ho (BitVec.eq_of_toNat_eq hb) hc (BitVec.eq_of_toNat_eq hs)
    · cases hd
  case h_15 hc =>
    split at hd
    case h_7 => cases hd
    all_goals
      next hs =>
        cases hd
        exact encodesAs_pack16 rfl rfl ho rfl hc (BitVec.eq_of_toNat_eq hs)
  case h_16 => cases hd
  case h_1 hc | h_2 hc | h_3 hc | h_4 hc | h_5 hc | h_6 hc =>
    cases hd
    exact encodesAs_pack16Imm5 rfl rfl ho (by rw [hc]; rfl)
  all_goals
    next hc =>
      cases hd
      exact encodesAs_pack16 rfl rfl ho rfl hc rfl

/-- An 8-bit immediate takes the places of `op2` and R2. -/
theorem imm8Field_parts (h : Half) :
    op2Field h = (imm8Field h).extractLsb' 4 4 ∧ r2Field h = (imm8Field h).extractLsb' 0 4 :=
  ⟨(extract_extract h 0 8 4 4 (by decide)).symm, (extract_extract h 0 8 0 4 (by decide)).symm⟩

theorem encodesAs_of_decode7 (ho : (opField h).toNat = 7) (hd : decode7 h = some i) : i.EncodesAs (.half h) := by
  unfold decode7 at hd
  simp only at hd
  split at hd
  case h_1 hb | h_4 hb | h_5 hb =>
    split at hd
    · next hk =>
      cases hd
      obtain ⟨hc, hs⟩ := imm8Field_parts h
      rw [hk] at hc hs
      exact encodesAs_pack16 rfl rfl ho (BitVec.eq_of_toNat_eq hb) (congrArg BitVec.toNat hc) hs
    · cases hd
  case h_12 => cases hd
  all_goals
    next hb =>
      cases hd
      exact encodesAs_pack16Imm8 rfl rfl ho hb rfl

theorem encodesAs_of_decode16 (hd : decode16 h = some i) : i.EncodesAs (.half h) := by
  unfold decode16 at hd
  split at hd
  case h_1 ho => exact encodesAs_of_decode0 ho hd
  case h_2 ho => exact encodesAs_of_decode1 ho hd
  case h_3 ho => exact encodesAs_of_decode2 ho hd
  case h_4 ho => exact encodesAs_of_decode3 ho hd
  case h_6 ho => exact encodesAs_of_decode5 ho hd
  case h_8 ho => exact encodesAs_of_decode7 ho hd
  case h_5 ho | h_7 ho =>
    cases hd
    exact encodesAs_pack16Imm8 rfl rfl ho rfl rfl
  case h_9 => cases hd

/-! ## The rows of R72 -/

theorem encodesAs_of_decode8 (ho : (opField (upperHalf w)).toNat = 8) (hd : decode8 w = some i) :
    i.EncodesAs (.word w) := by
  unfold decode8 at hd
  simp only at hd
  split at hd
  case h_1 hc | h_2 hc =>
    split at hd
    · next hb =>
      cases hd
      exact encodesAs_pack32 rfl rfl ho hb hc rfl rfl
    · cases hd
  case h_3 hc =>
    split at hd
    case h_3 => cases hd
    all_goals
      next hk =>
        cases hd
        exact encodesAs_pack32 rfl rfl ho rfl hc rfl (BitVec.eq_of_toNat_eq hk)
  case h_9 => cases hd
  all_goals
    next hc =>
      cases hd
      exact encodesAs_pack32 rfl rfl ho rfl hc rfl rfl

/-- The extension halfword tells the width of a division (R160). -/
theorem decodeDivide_some {word byte half : Instr} {c : Half} (hd : decodeDivide word byte half c = some i) :
    (i = word ∧ c = 0x0000) ∨ (i = byte ∧ c = 0x0018) ∨ (i = half ∧ c = 0x0010) := by
  unfold decodeDivide at hd
  split at hd
  · next hk => exact .inl ⟨by cases hd; rfl, BitVec.eq_of_toNat_eq hk⟩
  · next hk => exact .inr (.inl ⟨by cases hd; rfl, BitVec.eq_of_toNat_eq hk⟩)
  · next hk => exact .inr (.inr ⟨by cases hd; rfl, BitVec.eq_of_toNat_eq hk⟩)
  · cases hd

theorem encodesAs_of_decode9 (ho : (opField (upperHalf w)).toNat = 9) (hd : decode9 w = some i) :
    i.EncodesAs (.word w) := by
  unfold decode9 at hd
  simp only at hd
  split at hd
  case h_1 hc | h_2 hc | h_3 hc | h_4 hc =>
    obtain ⟨rfl, hk⟩ | ⟨rfl, hk⟩ | ⟨rfl, hk⟩ := decodeDivide_some hd
    all_goals exact encodesAs_pack32 rfl rfl ho rfl hc rfl hk
  case h_8 hc =>
    split at hd
    · next hs =>
      cases hd
      exact encodesAs_pack32 rfl rfl ho rfl hc hs rfl
    · cases hd
  case h_9 => cases hd
  all_goals
    next hc =>
      cases hd
      exact encodesAs_pack32 rfl rfl ho rfl hc rfl rfl

theorem encodesAs_of_decodeA (ho : (opField (upperHalf w)).toNat = 10) (hd : decodeA w = some i) :
    i.EncodesAs (.word w) := by
  unfold decodeA at hd
  simp only at hd
  split at hd
  case h_4 hc | h_5 hc =>
    split at hd
    · cases hd
    · next hb =>
      cases hd
      exact encodesAs_pack32 rfl rfl ho (r1Field_of_bitpos (Bool.eq_false_iff.2 hb)) hc rfl rfl
  case h_11 => cases hd
  all_goals
    next hc =>
      cases hd
      exact encodesAs_pack32 rfl rfl ho rfl hc rfl rfl

theorem encodesAs_of_decodeB (ho : (opField (upperHalf w)).toNat = 11) (hd : decodeB w = some i) :
    i.EncodesAs (.word w) := by
  unfold decodeB at hd
  simp only at hd
  split at hd
  case h_1 hc | h_2 hc =>
    cases hd
    exact encodesAs_pack32 rfl rfl ho rfl hc rfl rfl
  case h_9 => cases hd
  all_goals
    next hc =>
      split at hd
      · next hb =>
        cases hd
        exact encodesAs_pack32 rfl rfl ho hb hc rfl rfl
      · cases hd

theorem encodesAs_of_decodeD (ho : (opField (upperHalf w)).toNat = 13) (hd : decodeD w = some i) :
    i.EncodesAs (.word w) := by
  unfold decodeD at hd
  simp only at hd
  split at hd
  case h_1 hc | h_2 hc | h_3 hc =>
    split at hd
    · next hz =>
      cases hd
      exact encodesAs_pack32 rfl rfl ho rfl hc rfl (lowerHalf_of_coprocConst hz)
    · cases hd
  case h_4 hc =>
    split at hd
    · next hs =>
      cases hd
      exact encodesAs_pack32 rfl rfl ho rfl hc hs rfl
    · cases hd
  case h_5 => cases hd

theorem encodesAs_of_decodeF (ho : (opField (upperHalf w)).toNat = 15) (hd : decodeF w = some i) :
    i.EncodesAs (.word w) := by
  unfold decodeF at hd
  simp only at hd
  split at hd
  case h_7 => cases hd
  all_goals
    next hb =>
      cases hd
      exact encodesAs_pack32Imm24 rfl rfl ho hb

theorem encodesAs_of_decode32 (hd : decode32 w = some i) : i.EncodesAs (.word w) := by
  unfold decode32 at hd
  split at hd
  case h_1 ho => exact encodesAs_of_decode8 ho hd
  case h_2 ho => exact encodesAs_of_decode9 ho hd
  case h_3 ho => exact encodesAs_of_decodeA ho hd
  case h_4 ho => exact encodesAs_of_decodeB ho hd
  case h_5 ho => exact encodesAs_of_decodeD ho hd
  case h_6 ho =>
    cases hd
    exact encodesAs_pack32Imm24 rfl rfl ho rfl
  case h_7 ho => exact encodesAs_of_decodeF ho hd
  case h_8 => cases hd

/-- The decoder is strict: an instruction is read from no code but its own. -/
theorem encodesAs_of_decode {c : Code} (hd : c.decode = some i) : i.EncodesAs c := by
  cases c with
  | half h => exact encodesAs_of_decode16 hd
  | word w => exact encodesAs_of_decode32 hd

/-- The opcode maps read an instruction from its own code and from no other. -/
theorem decode_eq_some_iff {c : Code} : c.decode = some i ↔ i.EncodesAs c :=
  ⟨encodesAs_of_decode, fun ⟨hw, hc⟩ => hc ▸ Code.decode_encode hw⟩

end Sys2Proof
end

section
/-!
SUPPORT. Reserved encodings, the fetch of a parallel pair, the fetches that are refused, and what the merge of a pair
leaves.
-/

namespace Sys2Proof.Machine

variable {i : Instr} {s t u : State}

/-! ## Bytes that are no instruction (R71) -/

theorem decode16_none_of_error {b0 b1 : Byte} {rest : List Byte} {e : DecodeReject}
    (hd : decodeBytes (b0 :: b1 :: rest) = .error e) (hm : msb (b0 ++ b1 : Half) = false) :
    decode16 (b0 ++ b1) = none := by
  simp only [decodeBytes, hm] at hd
  cases hi : decode16 (b0 ++ b1) with
  | none => rfl
  | some i => rw [hi] at hd; cases hd

theorem decode32_none_of_error {b0 b1 b2 b3 : Byte} {rest : List Byte} {e : DecodeReject}
    (hd : decodeBytes (b0 :: b1 :: b2 :: b3 :: rest) = .error e) (hm : msb (b0 ++ b1 : Half) = true) :
    decode32 ((b0 ++ b1 : Half) ++ (b2 ++ b3 : Half)) = none := by
  simp only [decodeBytes, hm] at hd
  cases hi : decode32 ((b0 ++ b1 : Half) ++ (b2 ++ b3 : Half)) with
  | none => rfl
  | some i => rw [hi] at hd; cases hd

/-! ## The fetch of a parallel pair (R65, R66) -/

/-- Two bytes that are an instruction are one halfword of R69. -/
theorem decodeBytes_pair_ok {b0 b1 : Byte} (hd : decodeBytes [b0, b1] = .ok (i, [])) :
    msb (b0 ++ b1 : Half) = false ∧ decode16 (b0 ++ b1) = some i := by
  obtain ⟨hm, hi, -⟩ | ⟨-, b2, b3, hrest, -⟩ := decodeBytes_ok hd
  · exact ⟨hm, hi⟩
  · cases hrest

/-- A halfword without its MSB, by its bytes. -/
theorem append_and_lowBits (b0 b1 : Byte) : (b0 ++ b1 : Half) &&& 0x7FFF = (b0 &&& 0x7F) ++ b1 := by
  have hmask : (0x7FFF : Half) = (0x7F : Byte) ++ (0xFF : Byte) := rfl
  have hones : b1 &&& 0xFF = b1 := BitVec.and_allOnes
  rw [hmask, BitVec.and_append, hones]

theorem msb_and_lowBits (b : Byte) : (b &&& 0x7F).msb = false := by
  rw [BitVec.msb_and]
  exact Bool.and_false _

/-- A word with MSBs 0 and 1 at a quiet boundary is a parallel pair. -/
theorem step_runs_parallel (hq : s.quiet) (hf : s.fetchable 0 4) (hp : s.pc.toNat % 4 = 0)
    (h0 : msb (s.codeByte 0 ++ s.codeByte 1 : Half) = false) (h2 : (s.codeByte 2).msb = true) :
    step s = execPair (s.codeByte 0 ++ s.codeByte 1) ((s.codeByte 2 &&& 0x7F) ++ s.codeByte 3) s.passBoundary := by
  have hl : msb (s.codeByte 2 ++ s.codeByte 3 : Half) = true := (msb_append _ _).trans h2
  have hparcel : parcelAtWord (s.mem.readWord s.wordBase) =
      .pair (s.codeByte 0 ++ s.codeByte 1) ((s.codeByte 2 &&& 0x7F) ++ s.codeByte 3) := by
    rw [parcelAtWord, s.upperHalf_readWord_wordBase, s.lowerHalf_readWord_wordBase, if_neg (by simp [h0]), if_pos hl,
      append_and_lowBits]
  rw [step_quiet hq]
  exact execNext_at_word (s := s.passBoundary) hparcel hf hp

theorem execPair_decoded {ha hb : Half} {a b : Instr} (hda : decode16 ha = some a) (hdb : decode16 hb = some b) :
    execPair ha hb s = if pairAllowed a b then runPair a b s else .refused .illegalPair := by
  simp only [execPair, hda, hdb]

/-- A reserved member raises RIE, whatever the other is (R281). -/
theorem execPair_reserved {ha hb : Half} (h : decode16 ha = none ∨ decode16 hb = none) :
    execPair ha hb s = raise .rie s := by
  unfold execPair
  split
  next hda hdb => simp [hda, hdb] at h
  next => rfl

/-- At a boundary the exception is the entry of an EIT alone: no pair is under way. -/
theorem step_enters_of_raise {k : Eit} (h : step s = raise k s.passBoundary) :
    ∃ t, step s = .next t ∧ Entered s.passBoundary t k s.pc :=
  ⟨_, h, s.passBoundary.eitEntry_abortPair_entered k s.pc⟩

/-! ## The fetches that are refused -/

theorem State.storedAny_passBoundary (s : State) (a : Word) (n : Nat) :
    s.passBoundary.storedAny a n = s.storedAny a n := by
  induction n with
  | zero => rfl
  | succ n ih => rw [State.storedAny, State.storedAny, ih]; rfl

/-- What is fetched does not depend on the boundary passed. -/
theorem State.fetch_passBoundary (s : State) : s.passBoundary.fetch = s.fetch := by
  simp only [State.fetch, State.storedAny_passBoundary]
  rfl

theorem step_refused {r : Refusal} (hq : s.quiet) (hf : s.fetch = .error r) : step s = .refused r := by
  rw [step_quiet hq, execNext, State.fetch_passBoundary, hf]

/-- A user-mode fetch outside user space (R287). -/
theorem State.fetch_denied (hu : s.psw.pm = true) (ha : 2147483648 ≤ s.wordStart) :
    s.fetch = .error .userAccessOutsideUserSpace := by
  have hno : memAllowed s.psw.pm s.wordBase = false := by
    simp [memAllowed, hu, s.wordBase_toNat, ha]
  simp only [State.fetch, hno]
  rfl

theorem State.memAllowed_wordBase (hu : s.psw.pm = true → s.wordStart < 2147483648) :
    memAllowed s.psw.pm s.wordBase = true :=
  State.fetchable_allowed (k := 0) (n := 0) ⟨hu, fun _ _ h => by omega⟩

/-- A stored byte among those that a parcel at a word-aligned pc executes (R54). -/
theorem State.fetch_stored_at_word (hu : s.psw.pm = true → s.wordStart < 2147483648) (hp : s.pc.getLsbD 1 = false)
    {a : Nat} (ha : a ∈ s.stored) (hlo : s.wordStart ≤ a)
    (hhi : a < s.wordStart + (parcelAtWord (s.mem.readWord s.wordBase)).size) :
    s.fetch = .error .fetchOfStoredCode := by
  have hs : s.storedAny s.wordBase (parcelAtWord (s.mem.readWord s.wordBase)).size = true := by
    rw [State.storedAny_iff, s.wordBase_toNat]
    exact ⟨a, ha, hlo, hhi⟩
  simp only [State.fetch, State.memAllowed_wordBase hu, hp, hs]
  rfl

/-- A stored byte in the lower half of a word that is executed on its own (R54). -/
theorem State.fetch_stored_at_lower_half (hu : s.psw.pm = true → s.wordStart < 2147483648)
    (hp : s.pc.getLsbD 1 = true) {a : Nat} (ha : a ∈ s.stored) (hlo : s.wordStart + 2 ≤ a)
    (hhi : a < s.wordStart + 4) : s.fetch = .error .fetchOfStoredCode := by
  have hs : s.storedAny (s.wordBase + 2) 2 = true := by
    obtain ⟨-, h2, -⟩ := toNat_add_of_wordAligned s.wordBase_aligned
    rw [State.storedAny_iff, h2, s.wordBase_toNat]
    exact ⟨a, ha, hlo, hhi⟩
  simp only [State.fetch, State.memAllowed_wordBase hu, hp, hs]
  rfl

theorem two_le_parcel_size (p : Parcel) : 2 ≤ p.size := by
  cases p <;> simp [Parcel.size]

/-- A word whose MSBs are not both 0 is executed whole (R65). -/
theorem parcelAtWord_size {w : Word} (h : msb (upperHalf w) = true ∨ msb (lowerHalf w) = true) :
    (parcelAtWord w).size = 4 := by
  unfold parcelAtWord
  split
  · rfl
  · next h0 => rw [if_pos (h.resolve_left h0)]; rfl

/-- The word at the pc is no sequential pair, by its bytes. -/
theorem State.msb_readWord_wordBase (h : (s.codeByte 0).msb = true ∨ (s.codeByte 2).msb = true) :
    msb (upperHalf (s.mem.readWord s.wordBase)) = true ∨ msb (lowerHalf (s.mem.readWord s.wordBase)) = true := by
  rwa [s.upperHalf_readWord_wordBase, s.lowerHalf_readWord_wordBase, msb_append, msb_append]

/-! ## The merge of a pair (R75 to R77) -/

theorem MayWrite.irq_eq (h : MayWrite i s u) : u.irq = s.irq := by
  induction h with
  | start => rfl
  | reg | acc => simpa
  | cond _ _ _ ih | byte _ _ _ _ _ _ _ _ ih | psw _ _ _ _ ih | evb _ _ _ _ ih | bpc _ _ _ _ ih | lock _ _ ih
  | coproc _ _ _ ih | draw _ _ ih => exact ih

/-- What the environment offers is no instruction's to change (R277). -/
theorem MayEnd.irq_eq (h : MayEnd i s t) : t.irq = s.irq := by
  cases h with
  | completes hw => exact hw.irq_eq
  | cancels | raises | traps => rfl

/-- A's state with B's register writes laid over it (R76). -/
def mergedRegs (a b : Instr) (s ta tb : State) : State :=
  mergeRegs (writtenRegs a s) tb (writtenRegs b s) { ta with draws := max ta.draws tb.draws }

/-- The merge writes registers first, then C, then accumulators. -/
theorem mergePair_eq (a b : Instr) (s ta tb : State) :
    ∃ c k, mergePair a b s ta tb = mergeAccs b tb (((mergedRegs a b s ta tb).drawn k).setC c) := by
  obtain ⟨c, k, hc⟩ := mergeC_eq a b tb (mergedRegs a b s ta tb)
  exact ⟨c, k, congrArg (mergeAccs b tb) hc⟩

/-- What the merge leaves of A's state: everything but registers, C and accumulators (R75). -/
theorem mergePair_frame (a b : Instr) (s ta tb : State) :
    (mergePair a b s ta tb).pc = ta.pc ∧ (mergePair a b s ta tb).mem = ta.mem ∧
      (mergePair a b s ta tb).stored = ta.stored ∧ (mergePair a b s ta tb).lock = ta.lock ∧
      (mergePair a b s ta tb).evb = ta.evb ∧ (mergePair a b s ta tb).evbWritten = ta.evbWritten ∧
      (mergePair a b s ta tb).bpc = ta.bpc ∧ (mergePair a b s ta tb).coproc = ta.coproc ∧
      (mergePair a b s ta tb).irq = ta.irq ∧
      { (mergePair a b s ta tb).psw with c := ta.psw.c } = ta.psw := by
  obtain ⟨hpc, hpsw, hmem, hstored, hlock, hevb, hw, hbpc, -, -, hcoproc, hirq, -⟩ :=
    mergeRegs_frame (writtenRegs a s) tb (writtenRegs b s) { ta with draws := max ta.draws tb.draws }
  obtain ⟨c, k, hmerge⟩ := mergePair_eq a b s ta tb
  rw [hmerge]
  refine ⟨hpc, hmem, hstored, hlock, hevb, hw, hbpc, hcoproc, hirq, ?_⟩
  exact congrArg (fun p : Psw => { p with c := ta.psw.c }) hpsw

theorem readStore_mergePair (a b : Instr) (s ta tb : State) (p : Store) :
    (mergePair a b s ta tb).readStore p = (mergedRegs a b s ta tb).readStore p := by
  obtain ⟨c, k, hmerge⟩ := mergePair_eq a b s ta tb
  rw [hmerge]
  exact State.readStore_congr rfl rfl rfl p

/-- A cell that B does not write holds A's value. -/
theorem readStore_mergePair_out {a b : Instr} {s : State} {p : Store} (hp : p ∉ writtenRegs b s) (ta tb : State) :
    (mergePair a b s ta tb).readStore p = ta.readStore p := by
  rw [readStore_mergePair, mergedRegs, readStore_mergeRegs_out _ _ _ _ _ hp]
  exact State.readStore_congr rfl rfl rfl p

/-- A cell that only B writes holds B's value. -/
theorem readStore_mergePair_in {a b : Instr} {s : State} {p : Store} (hp : p ∈ writtenRegs b s)
    (ha : p ∉ writtenRegs a s) (ta tb : State) : (mergePair a b s ta tb).readStore p = tb.readStore p := by
  rw [readStore_mergePair, mergedRegs, readStore_mergeRegs_in _ _ _ _ _ hp ha]

/-- Where B does not write C, it is A's. -/
theorem mergePair_c_of_not_writes {a b : Instr} (hb : writesC b = false) (s ta tb : State) :
    (mergePair a b s ta tb).psw.c = ta.psw.c := by
  obtain ⟨-, hpsw, -⟩ :=
    mergeRegs_frame (writtenRegs a s) tb (writtenRegs b s) { ta with draws := max ta.draws tb.draws }
  simp only [mergePair, mergeC, hb]
  exact congrArg Psw.c hpsw

/-- Where only B writes C, it is B's (R77). -/
theorem mergePair_c_of_only_b {a b : Instr} (hb : writesC b = true) (ha : writesC a = false) (s ta tb : State) :
    (mergePair a b s ta tb).psw.c = tb.psw.c := by
  simp only [mergePair, mergeC, hb, ha]
  rfl

/-- An accumulator is B's where B writes it, else A's. -/
theorem accBits_mergePair (a b : Instr) (s ta tb : State) (x : Acc) :
    (mergePair a b s ta tb).accBits x = if writesAcc b x then tb.accBits x else ta.accBits x := by
  obtain ⟨-, -, -, -, -, -, -, -, h0, h1, -⟩ :=
    mergeRegs_frame (writtenRegs a s) tb (writtenRegs b s) { ta with draws := max ta.draws tb.draws }
  obtain ⟨c, k, hmerge⟩ := mergePair_eq a b s ta tb
  rw [hmerge]
  cases x
  · exact congrArg (fun z => if writesAcc b .a0 then tb.acc0 else z) h0
  · exact congrArg (fun z => if writesAcc b .a1 then tb.acc1 else z) h1

end Sys2Proof.Machine
end

section
/-!
The statements of the family of 30_encoding.md.
-/

namespace Sys2Proof.Machine

/-- Settles O4: each code decodes to its instruction, and its MSB tells the decoder its length. -/
theorem decodeEncode : Obligations.decode_encode := by
  unfold Obligations.decode_encode
  intro i rest hw
  exact decodeBytes_of_decode (decode_eq_some_iff.2 ⟨hw, rfl⟩) rest

/-- Settles O5: the bytes taken are those of a code, and the code is the instruction's own. -/
theorem encodeDecode : Obligations.encode_decode := by
  unfold Obligations.encode_decode
  intro bs rest i hd
  obtain ⟨c, hbytes, hc⟩ := decodeBytes_ok_code hd
  obtain ⟨hw, rfl⟩ := decode_eq_some_iff.1 hc
  exact ⟨hw, hbytes⟩

/-- Settles O9: in each of the four cases the step is `raise .rie` at the boundary passed. -/
theorem reservedEncodingRaisesRie : Obligations.reserved_encoding_raises_rie := by
  unfold Obligations.reserved_encoding_raises_rie
  intro s hq
  refine ⟨?wide, ?upper, ?lower, ?pair⟩
  case wide =>
    rintro hf hp h0 ⟨e, he⟩
    have hm := (msb_append (s.codeByte 0) (s.codeByte 1)).trans h0
    refine step_enters_of_raise ?_
    rw [step_runs_wide hq hf hp hm, decode32_none_of_error he hm]
    rfl
  case upper =>
    rintro hf hp h0 h2 ⟨e, he⟩
    have hm := (msb_append (s.codeByte 0) (s.codeByte 1)).trans h0
    refine step_enters_of_raise ?_
    rw [step_runs_upper hq hf hp hm ((msb_append _ _).trans h2), decode16_none_of_error he hm]
    rfl
  case lower =>
    rintro hf hp h0 h2 ⟨e, he⟩
    have hm := (msb_append (s.codeByte 2) (s.codeByte 3)).trans h2
    refine step_enters_of_raise ?_
    rw [step_runs_lower hq hf hp ((msb_append _ _).trans h0) hm, decode16_none_of_error he hm]
    rfl
  case pair =>
    intro hf hp h0 h2 he
    have hma := (msb_append (s.codeByte 0) (s.codeByte 1)).trans h0
    have hmb := (msb_append (s.codeByte 2 &&& 0x7F) (s.codeByte 3)).trans (msb_and_lowBits _)
    refine step_enters_of_raise ((step_runs_parallel hq hf hp hma h2).trans (execPair_reserved ?_))
    exact he.imp (fun ⟨_, he⟩ => decode16_none_of_error he hma) (fun ⟨_, he⟩ => decode16_none_of_error he hmb)

/-- Settles O10, by what the fetch answers in each case. -/
theorem refusedFetches : Obligations.refused_fetches := by
  unfold Obligations.refused_fetches
  intro s hq
  refine ⟨fun hu ha => step_refused hq (State.fetch_denied hu ha), fun hu => ⟨?first, ?second, ?lower⟩, ?entry⟩
  case first =>
    rintro hp ⟨a, ha, hlo, hhi⟩
    have hsize := two_le_parcel_size (parcelAtWord (s.mem.readWord s.wordBase))
    exact step_refused hq (State.fetch_stored_at_word hu hp ha hlo (by omega))
  case second =>
    rintro hp hm ⟨a, ha, hlo, hhi⟩
    have hsize := parcelAtWord_size (State.msb_readWord_wordBase hm)
    exact step_refused hq (State.fetch_stored_at_word hu hp ha (by omega) (by omega))
  case lower =>
    rintro hp ⟨a, ha, hlo, hhi⟩
    exact step_refused hq (State.fetch_stored_at_lower_half hu hp ha hlo hhi)
  case entry =>
    intro hf hp hm
    have hparcel : parcelAtLowerHalf (s.mem.readWord s.wordBase) = .error .lowerHalfEntry :=
      if_pos (Bool.or_eq_true_iff.2 (State.msb_readWord_wordBase hm))
    exact step_refused hq ((State.fetch_at_lower_half hf hp).trans hparcel)

/-- Settles O59: the step ends in the merge of the two members' states. -/
theorem pairMergesWrites : Obligations.pair_merges_writes := by
  unfold Obligations.pair_merges_writes
  intro a b s ta tb _ ha hb hi
  obtain ⟨hpc, hmem, hstored, hlock, hevb, hw, hbpc, hcoproc, hirq, hpsw⟩ := mergePair_frame a b s ta tb
  have hoffer : ta.irq = s.irq := (exec_mayEnd ha).irq_eq
  refine ⟨_, runPair_merges ha hi hb, hpc, hmem, hstored, hlock, hevb, hw, hbpc, hcoproc, hirq.trans hoffer, rfl,
    hpsw, fun p hp => ?out, fun p hp hpa => ?onlyB, fun hcb => mergePair_c_of_not_writes hcb s ta tb,
    fun hcb hca => mergePair_c_of_only_b hcb hca s ta tb, fun x => ?acc⟩
  case out => rw [readStore_settle, readStore_mergePair_out hp]
  case onlyB => rw [readStore_settle, readStore_mergePair_in hp hpa]
  case acc => exact (State.accBits_congr rfl rfl x).trans (accBits_mergePair a b s ta tb x)

/-- Settles O6. -/
theorem decodingSamples : Obligations.decoding_samples := by
  unfold Obligations.decoding_samples
  decide

/-- Settles O8: the fetched parcel is the pair of the two halfwords, the MSB of the lower one read as 0. -/
theorem stepRunsPair : Obligations.step_runs_pair := by
  unfold Obligations.step_runs_pair
  intro s a b hq hf hp h2 ha hb
  obtain ⟨hma, hda⟩ := decodeBytes_pair_ok ha
  obtain ⟨-, hdb⟩ := decodeBytes_pair_ok hb
  rw [step_runs_parallel hq hf hp hma h2, execPair_decoded hda hdb]
  exact ⟨fun h => if_pos h, fun h => if_neg (by simp [h])⟩

end Sys2Proof.Machine
end

section
/-!
SUPPORT. Loads and stores by the numbers in memory: what a load returns (R101 to R105), which bytes a store leaves
(R107 to R110), and an instruction that makes one guarded access.
-/

namespace Sys2Proof.Machine

variable {i : Instr} {s t : State} {ea len : Word} {n : Nat}

/-! ## Encodings -/

/-- The printed encoding of a well-formed instruction is read back by the decoder. -/
theorem encodedAs_of_encode {c : Code} (hw : i.wellFormed = true) (he : encode i = c) : EncodedAs i c := by
  have hd := decodeBytes_of_decode (decode_eq_some_iff.2 ⟨hw, he⟩) []
  rw [List.append_nil] at hd
  exact ⟨he, hd⟩

/-! ## The number in consecutive bytes (R42) -/

theorem toNat_append_byte {w : Nat} (x : BitVec w) (b : Byte) : (x ++ b).toNat = x.toNat * 256 + b.toNat := by
  rw [BitVec.toNat_append, ← Nat.shiftLeft_add_eq_or_of_lt b.isLt, Nat.shiftLeft_eq]

theorem bytesAt_one (m : Memory) (a : Nat) : bytesAt m a 1 = (m.readByte a).toNat := by
  simp [bytesAt]

theorem Memory.readHalf_toNat (m : Memory) (ha : ea.toNat % 2 = 0) : (m.readHalf ea).toNat = bytesAt m ea.toNat 2 := by
  rw [m.readHalf_aligned ha, toNat_append_byte, bytesAt, bytesAt_one]

theorem Memory.readWord_toNat (m : Memory) (ha : ea.toNat % 4 = 0) : (m.readWord ea).toNat = bytesAt m ea.toNat 4 := by
  rw [m.readWord_aligned ha, toNat_append_byte, toNat_append_byte, toNat_append_byte]
  simp only [bytesAt, Nat.zero_mul, Nat.zero_add, Nat.add_zero]

/-- An aligned word is the number of its four bytes. -/
theorem Memory.readWord_eq_ofNat (m : Memory) (ha : ea.toNat % 4 = 0) :
    m.readWord ea = BitVec.ofNat 32 (bytesAt m ea.toNat 4) := by
  rw [← m.readWord_toNat ha, BitVec.ofNat_toNat, BitVec.setWidth_eq]

/-- Zero extension keeps the unsigned number. -/
theorem setWidth_eq_ofNat {w m : Nat} {x : BitVec w} (h : x.toNat = m) : x.setWidth 32 = BitVec.ofNat 32 m :=
  h ▸ (BitVec.ofNat_toNat 32 x).symm

/-- Sign extension keeps the two's-complement reading. -/
theorem signExtend_eq_ofInt {w m : Nat} {x : BitVec w} (hw : 0 < w) (h : x.toNat = m) :
    x.signExtend 32 = BitVec.ofInt 32 (signedReading w m) := by
  have hpow : 2 ^ w = 2 * 2 ^ (w - 1) := by
    rw [← Nat.pow_succ', Nat.succ_eq_add_one, Nat.sub_add_cancel hw]
  have hread : x.toInt = signedReading w m := by
    rw [BitVec.toInt_eq_toNat_cond, signedReading, h]
    push_cast
    exact if_congr (by omega) rfl rfl
  rw [BitVec.signExtend, hread]

/-- Byte `k` of a word, counted from the least significant one. -/
theorem ofNat_div_pow_eq_extract (v : Word) (k : Nat) :
    BitVec.ofNat 8 (v.toNat / 256 ^ k) = v.extractLsb' (8 * k) 8 := by
  rw [BitVec.extractLsb', Nat.shiftRight_eq_div_pow, Nat.pow_mul]

/-! ## Forms with register update (R100, R111) -/

theorem withAccess_withUpdate_ne {d b : Reg} (ha : Accessible s ea n) (hne : d ≠ b) (t : State) :
    withAccess ea n s (withUpdate d b t) = .next t :=
  (withAccess_granted ha _).trans (if_neg hne)

theorem withAccess_withUpdate_eq {d b : Reg} (ha : Accessible s ea n) (he : d = b) (t : State) :
    withAccess ea n s (withUpdate d b t) = .refused .updateOfDataRegister :=
  (withAccess_granted ha _).trans (if_pos he)

/-! ## Loads -/

/-- An instruction that is a load of `n` bytes, by the value that the access delivers where it is aligned. -/
theorem loads_of {d : Reg} {v v' : Word} (h : exec i s = loadInto d ea n v' len s)
    (hv : ea.toNat % n = 0 → v' = v) : Loads i s d ea n v len := by
  refine ⟨fun ha => ?_, fun ha => raises_ae_of_misaligned h ha⟩
  rw [CompletesReg, h, ← hv ha.1]
  exact loadInto_granted ha

/-- LD (R101). -/
theorem loads_word {d : Reg} (h : exec i s = loadInto d ea 4 (s.mem.readWord ea) len s) :
    Loads i s d ea 4 (BitVec.ofNat 32 (bytesAt s.mem ea.toNat 4)) len :=
  loads_of h s.mem.readWord_eq_ofNat

/-- LDB (R102). -/
theorem loads_byte_signed {d : Reg} (h : exec i s = loadInto d ea 1 ((s.mem.readByte ea.toNat).signExtend 32) len s) :
    Loads i s d ea 1 (BitVec.ofInt 32 (signedReading 8 (bytesAt s.mem ea.toNat 1))) len :=
  loads_of h fun _ => signExtend_eq_ofInt (by decide) (bytesAt_one ..).symm

/-- LDUB (R103). -/
theorem loads_byte_unsigned {d : Reg} (h : exec i s = loadInto d ea 1 ((s.mem.readByte ea.toNat).setWidth 32) len s) :
    Loads i s d ea 1 (BitVec.ofNat 32 (bytesAt s.mem ea.toNat 1)) len :=
  loads_of h fun _ => setWidth_eq_ofNat (bytesAt_one ..).symm

/-- LDH (R104). -/
theorem loads_half_signed {d : Reg} (h : exec i s = loadInto d ea 2 ((s.mem.readHalf ea).signExtend 32) len s) :
    Loads i s d ea 2 (BitVec.ofInt 32 (signedReading 16 (bytesAt s.mem ea.toNat 2))) len :=
  loads_of h fun ha => signExtend_eq_ofInt (by decide) (s.mem.readHalf_toNat ha)

/-- LDUH (R105). -/
theorem loads_half_unsigned {d : Reg} (h : exec i s = loadInto d ea 2 ((s.mem.readHalf ea).setWidth 32) len s) :
    Loads i s d ea 2 (BitVec.ofNat 32 (bytesAt s.mem ea.toNat 2)) len :=
  loads_of h fun ha => setWidth_eq_ofNat (s.mem.readHalf_toNat ha)

/-- A load that also updates its base, another register than its destination: both are written. -/
theorem State.setReg_result_leaves {d b : Reg} (hne : d ≠ b) (v u : Word) :
    Leaves s ((s.setReg d v).result b u len) (s.fallThrough len) (regs := [(s.physReg d, v), (s.physReg b, u)]) := by
  have hcell : s.physReg d ≠ s.physReg b := fun h => hne (s.physReg_inj.1 h)
  apply Leaves.withoutStore
  case hregs =>
    intro p
    rw [lookup_pair, State.result, State.readStore_advance, State.readStore_setReg, State.readStore_setReg,
      State.physReg_setReg]
    by_cases hp : p = s.physReg d
    · rw [if_pos hp, if_pos hp, if_neg (hp ▸ hcell)]
    · rw [if_neg hp, if_neg hp]
  case hpc => exact State.fallThrough_congr (by simp) (by simp) len
  all_goals simp [State.result]

/-! ## Stores -/

theorem State.storeWord_bigEndian (hs : s.mem.wf = true) (ha : ea.toNat % 4 = 0) (v : Word) :
    Stored s (s.storeWord ea v) ea.toNat (bigEndian v.toNat 4) := by
  simp only [bigEndian, ofNat_div_pow_eq_extract]
  exact State.storeWord_bytes hs ha v

theorem State.storeHalf_bigEndian (hs : s.mem.wf = true) (ha : ea.toNat % 2 = 0) (v : Word) :
    Stored s (s.storeHalf ea (loHalf v)) ea.toNat (bigEndian v.toNat 2) := by
  have hbytes := State.storeHalf_bytes hs ha (loHalf v)
  rw [loHalf, extract_extract v 0 16 8 8 (by decide), extract_extract v 0 16 0 8 (by decide)] at hbytes
  simp only [bigEndian, ofNat_div_pow_eq_extract]
  exact hbytes

theorem State.storeByte_bigEndian (hs : s.mem.wf = true) (ea v : Word) :
    Stored s (s.storeByte ea (loByte v)) ea.toNat (bigEndian v.toNat 1) := by
  simp only [bigEndian, ofNat_div_pow_eq_extract]
  exact State.storeByte_bytes hs ea (loByte v)

/-- An instruction that is a guarded store, by the state `t` that the store leaves. -/
theorem stores_of {bs : List Byte} (h : exec i s = withAccess ea bs.length s (.next (t.advance len)))
    (hstored : ea.toNat % bs.length = 0 → Stored s t ea.toNat bs)
    (ht : t = { s with mem := t.mem, stored := t.stored }) : Stores i s ea bs len :=
  ⟨fun ha => ⟨_, h.trans (withAccess_granted ha _), (hstored ha.1).advance_leaves len ht⟩,
    fun ha => raises_ae_of_misaligned h ha⟩

/-- An instruction that is a guarded store with update of its base register (R111). -/
theorem storesWithUpdate_of {d b : Reg} {ub : Word} {bs : List Byte}
    (h : exec i s = withAccess ea bs.length s (withUpdate d b ((t.setReg b ub).advance 2)))
    (hstored : ea.toNat % bs.length = 0 → Stored s t ea.toNat bs)
    (ht : t = { s with mem := t.mem, stored := t.stored }) : StoresWithUpdate i s d b ea bs ub :=
  ⟨fun ha hne =>
      ⟨_, h.trans (withAccess_withUpdate_ne ha hne _), (hstored ha.1).setReg_advance_leaves b ub 2 ht⟩,
    fun ha he => h.trans (withAccess_withUpdate_eq ha he _), fun ha => raises_ae_of_misaligned h ha⟩

/-! ## The LOCK bit (R30) -/

/-- The LOCK bit is written beside what else an instruction leaves. -/
theorem Leaves.withLock {pc : Word} {regs : List (Store × Word)} {a : Nat} {bs : List Byte}
    (h : Leaves s t pc (regs := regs) (ea := a) (bytes := bs)) (b : Bool) :
    Leaves s { t with lock := b } pc (regs := regs) (lock := b) (ea := a) (bytes := bs) :=
  { h with
    regs := fun p => (State.readStore_congr rfl rfl rfl p).trans (h.regs p)
    lock := rfl }

/-- LOCK writes the bit and the register in either order (R106). -/
theorem State.result_withLock (s : State) (b : Bool) (d : Reg) (v len : Word) :
    ({ s with lock := b } : State).result d v len = { s.result d v len with lock := b } := by
  have hd : State.physReg { s with lock := b } d = s.physReg d := rfl
  rw [State.result, State.result, State.setReg, State.setReg, hd]
  cases s.physReg d <;> rfl

end Sys2Proof.Machine
end

section
/-!
The statements of the family of 40_load_store.md.
-/

namespace Sys2Proof.Machine

/-- Settles O32: each form but LD @Rsrc+ is one `loadInto`; that one writes its base as well, or is refused. -/
theorem loadsResults : Obligations.loads_results := by
  unfold Obligations.loads_results
  intro s d b q
  refine ⟨loads_word rfl, loads_word rfl, fun ha hne => ?update,
    fun ha he => withAccess_withUpdate_eq ha he _, raises_ae_of_misaligned rfl,
    encodedAs_of_encode rfl rfl, encodedAs_of_encode rfl rfl, encodedAs_of_encode rfl rfl,
    loads_byte_signed rfl, encodedAs_of_encode rfl rfl, loads_byte_signed rfl, encodedAs_of_encode rfl rfl,
    loads_byte_unsigned rfl, encodedAs_of_encode rfl rfl, loads_byte_unsigned rfl, encodedAs_of_encode rfl rfl,
    loads_half_signed rfl, encodedAs_of_encode rfl rfl, loads_half_signed rfl, encodedAs_of_encode rfl rfl,
    loads_half_unsigned rfl, encodedAs_of_encode rfl rfl, loads_half_unsigned rfl, encodedAs_of_encode rfl rfl⟩
  case update =>
    refine ⟨_, withAccess_withUpdate_ne ha hne _, ?_⟩
    rw [← s.mem.readWord_eq_ofNat ha.1]
    exact State.setReg_result_leaves hne _ _

/-- Settles O33: LOCK is a word load and UNLOCK with LOCK = 1 a word store, each beside its write of the LOCK bit. -/
theorem lockAndUnlock : Obligations.lock_and_unlock := by
  unfold Obligations.lock_and_unlock
  intro s d b hs
  refine ⟨fun ha => ?lock, raises_ae_of_misaligned rfl, fun hl => ?unlocked, fun hl ha => ?unlock,
    fun hl => raises_ae_of_misaligned (execUnlock_locked hl d b), encodedAs_of_encode rfl rfl,
    encodedAs_of_encode rfl rfl⟩
  case lock =>
    refine ⟨_, withAccess_granted ha _, ?_⟩
    rw [← s.mem.readWord_eq_ofNat ha.1, State.result_withLock]
    exact (s.result_leaves d _ 2).withLock true
  case unlocked => exact ⟨_, execUnlock_unlocked hl d b, s.unlock_advance_leaves 2⟩
  case unlock =>
    have hstored := State.storeWord_bigEndian hs ha.1 (s.getReg d)
    exact ⟨_, (execUnlock_locked hl d b).trans (withAccess_granted ha _),
      (hstored.advance_leaves 2 rfl).withLock false⟩

/-- Settles O34: each form is a guarded `State.storeWord`. -/
theorem storeWord : Obligations.store_word := by
  unfold Obligations.store_word
  intro s a b q hs
  have hstored {ea : Word} (ha : ea.toNat % 4 = 0) := State.storeWord_bigEndian hs ha (s.getReg a)
  exact ⟨stores_of rfl hstored rfl, encodedAs_of_encode rfl rfl,
    storesWithUpdate_of rfl hstored rfl, encodedAs_of_encode rfl rfl,
    storesWithUpdate_of rfl hstored rfl, encodedAs_of_encode rfl rfl,
    stores_of rfl hstored rfl, encodedAs_of_encode rfl rfl⟩

/-- Settles O35: each form is a guarded `State.storeByte`. -/
theorem storeByte : Obligations.store_byte := by
  unfold Obligations.store_byte
  intro s a b q hs
  have hstored (ea : Word) := State.storeByte_bigEndian hs ea (s.getReg a)
  exact ⟨stores_of rfl (fun _ => hstored _) rfl, encodedAs_of_encode rfl rfl,
    storesWithUpdate_of rfl (fun _ => hstored _) rfl, encodedAs_of_encode rfl rfl,
    stores_of rfl (fun _ => hstored _) rfl, encodedAs_of_encode rfl rfl⟩

/-- Settles O36: each form is a guarded `State.storeHalf`. -/
theorem storeHalf : Obligations.store_half := by
  unfold Obligations.store_half
  intro s a b q hs
  have hstored {ea : Word} (ha : ea.toNat % 2 = 0) := State.storeHalf_bigEndian hs ha (s.getReg a)
  exact ⟨stores_of rfl hstored rfl, encodedAs_of_encode rfl rfl,
    storesWithUpdate_of rfl hstored rfl, encodedAs_of_encode rfl rfl,
    stores_of rfl hstored rfl, encodedAs_of_encode rfl rfl⟩

end Sys2Proof.Machine
end

section
/-!
SUPPORT. Control registers bit by bit: what MVFC reads (R22 to R28, R123) and what MVTC writes or refuses (R124).
-/

namespace Sys2Proof.Machine

variable {i : Instr} {s t : State} {v : Word} {k : Nat}

/-! ## Results in one register -/

theorem completesReg_of_result {d : Reg} {len : Word} (h : exec i s = .next (s.result d v len)) :
    CompletesReg i s d v len :=
  ⟨_, h, s.result_leaves d v len⟩

/-- The upper halfword of a word weighs 2^16 (R125). -/
theorem upperImm_eq_ofNat (h : Half) : upperImm h = BitVec.ofNat 32 (h.toNat * 65536) := by
  have hh := h.isLt
  apply BitVec.eq_of_toNat_eq
  have hzero : (0 : Half).toNat = 0 := rfl
  rw [upperImm, BitVec.toNat_append, hzero, Nat.or_zero, Nat.shiftLeft_eq, BitVec.toNat_ofNat]
  omega

/-! ## Bits by the manual's numbers -/

/-- Bit `k` of the manual is the bit of weight 2^(31 - k) (R15). -/
theorem getMsbD_bitAt (b : Bool) {n : Nat} (hn : n < 32) : (bitAt b n).getMsbD k = (b && decide (k = 31 - n)) := by
  have hplace : 32 - n - 1 = 31 - n := by omega
  cases b <;> simp [bitAt, BitVec.getMsbD_twoPow, hn, hplace]

/-- PSW as a word has its named bits where R15 names them, and 0 elsewhere. -/
theorem Psw.toWord_getMsbD (p : Psw) (k : Nat) : p.toWord.getMsbD k = p.bit k := by
  simp only [Psw.toWord, BitVec.getMsbD_or, getMsbD_bitAt, Nat.reduceLT, Nat.reduceSub]
  unfold Psw.bit
  split <;> grind

/-- The writable field of EVB is b1 to b15 (R26). -/
theorem and_evbMask_getMsbD (v : Word) (hk : k < 32) :
    (v &&& 0x7FFF0000).getMsbD k = (decide (1 ≤ k ∧ k ≤ 15) && v.getMsbD k) := by
  have hmask : ∀ k < 32, (0x7FFF0000 : Word).getMsbD k = decide (1 ≤ k ∧ k ≤ 15) := by decide
  rw [BitVec.getMsbD_and, hmask k hk, Bool.and_comm]

/-- The fixed bit of BPC is b31 (R28). -/
theorem and_evenMask_getMsbD (v : Word) (hk : k < 32) :
    (v &&& 0xFFFFFFFE).getMsbD k = (decide (k ≠ 31) && v.getMsbD k) := by
  have hmask : ∀ k < 32, (0xFFFFFFFE : Word).getMsbD k = decide (k ≠ 31) := by decide
  rw [BitVec.getMsbD_and, hmask k hk, Bool.and_comm]

/-- EVB reads in b1 to b15 only: AT reads 0 because `Config.atMode` is `false` (R26, decision D24). -/
theorem State.readEvb_getMsbD (s : State) (hk : k < 32) :
    s.readEvb.getMsbD k = (decide (1 ≤ k ∧ k ≤ 15) && s.evb.getMsbD k) := by
  have hat : s.readEvb = s.evb &&& 0x7FFF0000 := BitVec.zero_or
  rw [hat, and_evbMask_getMsbD s.evb hk]

/-- CBR reads as C alone (R24). -/
theorem bitAt_zero (b : Bool) : bitAt b 0 = if b then 1 else 0 := rfl

/-! ## The numbers that name a register (R14) -/

theorem unassigned_toNat {n : BitVec 4} (h : n ∉ ([0, 1, 2, 3, 5, 6] : List (BitVec 4))) :
    n.toNat = 4 ∨ 7 ≤ n.toNat := by
  revert n; decide

theorem State.readCR_unassigned (s : State) {n : BitVec 4} (h : n ∉ ([0, 1, 2, 3, 5, 6] : List (BitVec 4))) :
    s.readCR n = none := by
  have hn := unassigned_toNat h
  unfold State.readCR
  split
  case h_7 => rfl
  all_goals omega

theorem writeCR_unassigned {n : BitVec 4} (h : n ∉ ([0, 1, 2, 3, 5, 6] : List (BitVec 4))) (v : Word) (s : State) :
    writeCR n v s = .error (.unassignedControlRegister n) := by
  have hn := unassigned_toNat h
  unfold writeCR
  split
  case h_7 => rfl
  all_goals omega

/-! ## MVFC (R123) -/

/-- MVFC of a number that names a register. -/
theorem mvfc_completes {n : BitVec 4} (h : s.readCR n = some v) (d : Reg) : CompletesReg (.mvfc d n) s d v 2 := by
  have hexec : exec (.mvfc d n) s = execMvfc d n s := rfl
  exact completesReg_of_result (by rw [hexec, execMvfc, h])

theorem mvfc_refused {n : BitVec 4} (h : s.readCR n = none) (d : Reg) :
    exec (.mvfc d n) s = .refused (.unassignedControlRegister n) := by
  have hexec : exec (.mvfc d n) s = execMvfc d n s := rfl
  rw [hexec, execMvfc, h]

/-! ## MVTC (R124) -/

/-- EVB is written once, in b1 to b15 (R26, R27). -/
theorem writeCR_evb (hw : s.evbWritten = false) (h : v &&& 0x0000FFFF = 0) :
    writeCR 5 v s = .ok { s with evb := v &&& 0x7FFF0000, evbWritten := true } :=
  (if_neg (Bool.eq_false_iff.1 hw)).trans (if_neg (not_not_intro h))

theorem writeCR_evb_fixedZeroBit (hw : s.evbWritten = false) (h : v &&& 0x0000FFFF ≠ 0) :
    writeCR 5 v s = .error .fixedZeroBit :=
  (if_neg (Bool.eq_false_iff.1 hw)).trans (if_pos h)

theorem writeCR_evb_writtenTwice (hw : s.evbWritten = true) (v : Word) :
    writeCR 5 v s = .error .evbWrittenTwice :=
  if_pos hw

/-- In supervisor mode MVTC is the write of the control register, and a step to the next instruction. -/
theorem mvtc_completes {n : BitVec 4} {r : Reg} (hp : s.psw.pm = false) (h : writeCR n (s.getReg r) s = .ok t) :
    exec (.mvtc n r) s = .next (t.advance 2) := by
  have hexec : exec (.mvtc n r) s = execMvtc n r s := rfl
  rw [hexec, execMvtc, privileged_supervisor hp, h]

theorem mvtc_refused {n : BitVec 4} {r : Reg} {e : Refusal} (hp : s.psw.pm = false)
    (h : writeCR n (s.getReg r) s = .error e) : exec (.mvtc n r) s = .refused e := by
  have hexec : exec (.mvtc n r) s = execMvtc n r s := rfl
  rw [hexec, execMvtc, privileged_supervisor hp, h]

/-- PSW, EVB and BPC are written beside the step to the next instruction, and nothing else changes. -/
theorem State.writeControl_advance_leaves (s : State) (p : Psw) (e : Word) (w : Bool) (b len : Word) :
    Leaves s (({ s with psw := p, evb := e, evbWritten := w, bpc := b } : State).advance len) (s.fallThrough len)
      (psw := p) (evb := e) (evbWritten := w) (bpc := b) := by
  apply Leaves.withoutStore
  case hregs =>
    intro q
    exact State.readStore_congr rfl rfl rfl q
  all_goals rfl

/-- A register cell is written beside the step to the next instruction, and nothing else changes. -/
theorem State.writeStore_advance_leaves (s : State) (p : Store) (v len : Word) :
    Leaves s ((s.writeStore p v).advance len) (s.fallThrough len) (regs := [(p, v)]) := by
  apply Leaves.withoutStore
  case hregs =>
    intro q
    rw [State.readStore_advance, State.readStore_writeStore, lookup_single]
  case hpc => exact State.fallThrough_congr (by simp) (by simp) len
  all_goals simp

end Sys2Proof.Machine
end

section
/-!
The statements of the family of 41_transfer.md.
-/

namespace Sys2Proof.Machine

/-- Settles O20: each is one `State.result`, of the value its rule gives. -/
theorem transferResults : Obligations.transfer_results := by
  unfold Obligations.transfer_results
  intro s d r c h w
  have hld24 : zext24 w = BitVec.ofNat 32 w.toNat := setWidth_eq_ofNat rfl
  exact ⟨hld24 ▸ completesReg_of_result rfl, encodedAs_of_encode rfl rfl,
    completesReg_of_result rfl, encodedAs_of_encode rfl rfl, rfl,
    completesReg_of_result rfl, encodedAs_of_encode rfl rfl,
    completesReg_of_result rfl, encodedAs_of_encode rfl rfl, rfl,
    upperImm_eq_ofNat h ▸ completesReg_of_result rfl, encodedAs_of_encode rfl rfl⟩

/-- Settles O21: MVFC writes what `State.readCR` reads, and that is read bit by bit. -/
theorem mvfcReadsControlRegisters : Obligations.mvfc_reads_control_registers := by
  unfold Obligations.mvfc_reads_control_registers
  intro s d
  refine ⟨⟨_, mvfc_completes rfl d, fun k _ => s.psw.toWord_getMsbD k⟩,
    bitAt_zero s.psw.c ▸ mvfc_completes rfl d, mvfc_completes rfl d, mvfc_completes rfl d,
    ⟨_, mvfc_completes rfl d, fun k hk => s.readEvb_getMsbD hk⟩,
    ⟨_, mvfc_completes rfl d, fun k hk => and_evenMask_getMsbD s.bpc hk⟩,
    fun n hn => mvfc_refused (s.readCR_unassigned hn) d, fun n => ⟨encodedAs_of_encode rfl rfl, rfl⟩⟩

/-- Settles O22: in supervisor mode MVTC is `writeCR`, which completes or is refused for each register in turn. -/
theorem mvtcWritesControlRegisters : Obligations.mvtc_writes_control_registers := by
  unfold Obligations.mvtc_writes_control_registers
  intro s r hp v
  refine ⟨fun h => ⟨_, mvtc_completes hp (writeCR_psw h s), ?psw⟩,
    fun h => mvtc_refused hp (writeCR_psw_refused h s), ⟨_, mvtc_completes hp rfl, s.advance_leaves 2⟩,
    ⟨_, mvtc_completes hp rfl, s.writeStore_advance_leaves .spi v 2⟩,
    ⟨_, mvtc_completes hp rfl, s.writeStore_advance_leaves .spu v 2⟩,
    fun hw h => mvtc_refused hp (writeCR_evb_fixedZeroBit hw h),
    fun hw h => ⟨_, _, mvtc_completes hp (writeCR_evb hw h), ?evb, fun k hk => and_evbMask_getMsbD v hk⟩,
    ⟨_, _, mvtc_completes hp rfl, ?bpc, fun k hk => and_evenMask_getMsbD v hk⟩,
    fun hw => mvtc_refused hp (writeCR_evb_writtenTwice hw v),
    fun n hn => mvtc_refused hp (writeCR_unassigned hn v s), fun n => ⟨encodedAs_of_encode rfl rfl, rfl⟩⟩
  case psw => exact s.writeControl_advance_leaves (Psw.ofWord v) s.evb s.evbWritten s.bpc 2
  case evb => exact s.writeControl_advance_leaves s.psw _ true s.bpc 2
  case bpc => exact s.writeControl_advance_leaves s.psw s.evb s.evbWritten _ 2

end Sys2Proof.Machine
end

section
/-!
SUPPORT. The numbers of the compare, arithmetic and logic instructions: what an extended immediate is as a number, and
the word operations as exact sums, differences and bitwise results modulo 2^32 (R129 to R153), and BTST (R222).
-/

namespace Sys2Proof.Machine

variable {i : Instr} {s : State} {len : Word} {c : Bool}

/-! ## Results in C -/

theorem completesC_of_resultC (h : exec i s = .next (s.resultC c len)) : CompletesC i s c len :=
  ⟨_, h, s.resultC_leaves c len⟩

theorem completesRegC_of_result {d : Reg} {v : Word} (h : exec i s = .next ((s.setC c).result d v len)) :
    CompletesRegC i s d v c len :=
  ⟨_, h, s.setC_result_leaves d v c len⟩

/-! ## Extended immediates (R67) -/

theorem sext8_toInt (c : BitVec 8) : (sext8 c).toInt = c.toInt :=
  BitVec.toInt_signExtend_of_le (by decide)

theorem sext16_toInt (h : Half) : (sext16 h).toInt = h.toInt :=
  BitVec.toInt_signExtend_of_le (by decide)

/-- A negative immediate is a large unsigned number: its upper halfword is all ones (R134). -/
theorem sext16_toNat (h : Half) :
    (sext16 h).toNat = if h.toNat < 32768 then h.toNat else h.toNat + 4294901760 := by
  have hmsb : h.msb = decide (32768 ≤ h.toNat) := h.msb_eq_decide
  rw [sext16, BitVec.toNat_signExtend, BitVec.toNat_setWidth_of_le (by decide), hmsb]
  by_cases hpos : h.toNat < 32768
  · rw [decide_eq_false (Nat.not_le.2 hpos), if_pos hpos]
    rfl
  · rw [decide_eq_true (Nat.not_lt.1 hpos), if_neg hpos]
    rfl

theorem zext16_toNat (h : Half) : (zext16 h).toNat = h.toNat :=
  BitVec.toNat_setWidth_of_le (by decide)

/-! ## Sums and differences as signed numbers -/

theorem add_eq_ofInt (x y : Word) : x + y = BitVec.ofInt 32 (x.toInt + y.toInt) := by
  rw [BitVec.ofInt_add, BitVec.ofInt_toInt, BitVec.ofInt_toInt]

theorem zero_sub_eq_ofInt (x : Word) : 0 - x = BitVec.ofInt 32 (-x.toInt) := by
  rw [BitVec.ofInt_neg, BitVec.ofInt_toInt]
  exact BitVec.zero_sub x

theorem sub_eq_ofInt (x y : Word) : x - y = BitVec.ofInt 32 (x.toInt - y.toInt) := by
  rw [Int.sub_eq_add_neg, BitVec.ofInt_add, BitVec.ofInt_neg, BitVec.ofInt_toInt, BitVec.ofInt_toInt]
  exact BitVec.sub_eq_add_neg x y

/-! ## Carry and borrow (R129, R142, R146) -/

theorem carryIn_bounds (c : Bool) : 0 ≤ carryIn c ∧ carryIn c ≤ 1 := by
  cases c <;> decide

/-- A sum with a carry is not negative, so that ADDX leaves 32 bits upwards only. -/
theorem unsignedOverflow_of_nonneg {n : Int} (h : 0 ≤ n) : unsignedOverflow n = decide (4294967295 < n) :=
  decide_eq_decide.2 (or_iff_right (Int.not_lt.2 h))

/-- A difference with a borrow is at most 2^32 - 1, so that SUBX leaves 32 bits downwards only. -/
theorem unsignedOverflow_of_le {n : Int} (h : n ≤ 4294967295) : unsignedOverflow n = decide (n < 0) :=
  decide_eq_decide.2 (or_iff_left (Int.not_lt.2 h))

theorem unsignedOverflow_sum (x y : Word) (c : Bool) :
    unsignedOverflow (x.toNat + y.toNat + carryIn c) = decide (4294967295 < (x.toNat + y.toNat + carryIn c : Int)) := by
  have hc := carryIn_bounds c
  exact unsignedOverflow_of_nonneg (by omega)

theorem unsignedOverflow_difference (x y : Word) (c : Bool) :
    unsignedOverflow (x.toNat - y.toNat - carryIn c) = decide ((x.toNat - y.toNat - carryIn c : Int) < 0) := by
  have hc := carryIn_bounds c
  have hx := x.isLt
  exact unsignedOverflow_of_le (by omega)

/-- ADDX with the carry out of a sum as its new C (R142). -/
theorem addx_completes (s : State) (d r : Reg) :
    CompletesRegC (.addx d r) s d (BitVec.ofInt 32 ((s.getReg d).toNat + (s.getReg r).toNat + carryIn s.psw.c))
      (decide (4294967295 < ((s.getReg d).toNat + (s.getReg r).toNat + carryIn s.psw.c : Int))) 2 := by
  rw [← unsignedOverflow_sum]
  exact completesRegC_of_result rfl

/-- SUBX with the borrow of a difference as its new C (R146). -/
theorem subx_completes (s : State) (d r : Reg) :
    CompletesRegC (.subx d r) s d (BitVec.ofInt 32 ((s.getReg d).toNat - (s.getReg r).toNat - carryIn s.psw.c))
      (decide (((s.getReg d).toNat - (s.getReg r).toNat - carryIn s.psw.c : Int) < 0)) 2 := by
  rw [← unsignedOverflow_difference]
  exact completesRegC_of_result rfl

/-! ## Bitwise results as numbers -/

theorem and_eq_ofNat (x y : Word) : x &&& y = BitVec.ofNat 32 (x.toNat &&& y.toNat) := by
  rw [BitVec.ofNat_and, BitVec.ofNat_toNat, BitVec.ofNat_toNat, BitVec.setWidth_eq, BitVec.setWidth_eq]

theorem or_eq_ofNat (x y : Word) : x ||| y = BitVec.ofNat 32 (x.toNat ||| y.toNat) := by
  rw [BitVec.ofNat_or, BitVec.ofNat_toNat, BitVec.ofNat_toNat, BitVec.setWidth_eq, BitVec.setWidth_eq]

theorem xor_eq_ofNat (x y : Word) : x ^^^ y = BitVec.ofNat 32 (x.toNat ^^^ y.toNat) := by
  rw [BitVec.ofNat_xor, BitVec.ofNat_toNat, BitVec.ofNat_toNat, BitVec.setWidth_eq, BitVec.setWidth_eq]

theorem not_eq_ofNat (x : Word) : ~~~x = BitVec.ofNat 32 (4294967295 - x.toNat) := by
  apply BitVec.eq_of_toNat_eq
  rw [BitVec.toNat_not, BitVec.toNat_ofNat]
  omega

/-! ## Tests of a word (R131, R135, R136, R222) -/

theorem beq_zero_eq_decide_toNat {w : Nat} (x : BitVec w) : (x == 0#w) = decide (x.toNat = 0) := by
  rw [beq_eq_decide]
  exact decide_eq_decide.2 (BitVec.toNat_inj (y := 0#w)).symm

/-- Byte `k` of a word, counted from the least significant one, is zero. -/
theorem extract_byte_beq_zero (v : Word) (k : Nat) :
    (v.extractLsb' (8 * k) 8 == 0) = decide (v.toNat / 256 ^ k % 256 = 0) := by
  rw [← ofNat_div_pow_eq_extract]
  exact beq_zero_eq_decide_toNat _

/-- PCMPBZ looks at all four bytes (R136). -/
theorem someByteZero_eq_decide (v : Word) :
    someByteZero v = decide (∃ k : Fin 4, v.toNat / 256 ^ k.val % 256 = 0) := by
  have hbyte := extract_byte_beq_zero v
  rw [Bool.eq_iff_iff, decide_eq_true_iff, someByteZero, hbyte 3, hbyte 2, hbyte 1, hbyte 0]
  simp only [Bool.or_eq_true, decide_eq_true_iff]
  constructor
  · rintro (((h3 | h2) | h1) | h0)
    exacts [⟨3, h3⟩, ⟨2, h2⟩, ⟨1, h1⟩, ⟨0, h0⟩]
  · rintro ⟨k, hk⟩
    fin_cases k
    exacts [.inr hk, .inl (.inr hk), .inl (.inl (.inr hk)), .inl (.inl (.inl hk))]

/-- The bit that BTST names, counted from the most significant bit of the low byte (R222). -/
theorem testedBit_eq_getMsbD (v : Word) (k : BitVec 3) : testedBit v k = (v.setWidth 8).getMsbD k.toNat := by
  have hk := k.isLt
  have hlow : 8 - 1 - k.toNat < 8 := by omega
  rw [BitVec.getMsbD_eq_getLsbD, BitVec.getLsbD_setWidth, decide_eq_true hk, decide_eq_true hlow,
    Bool.true_and, Bool.true_and, testedBit]

/-- The halfword `0000 ottt op2 ssss` has the field R1 `ottt` (R222). -/
theorem append_bitpos (o : BitVec 1) (k : BitVec 3) (b c d : BitVec 4) :
    (b ++ o ++ k ++ c ++ d : BitVec (4 + 1 + 3 + 4 + 4)) = pack16 b (o ++ k) c d := by
  rw [BitVec.append_assoc (x₁ := b)]
  rfl

/-- A halfword like BTST's with bit 4 equal to 1 is reserved (R222). -/
theorem decode16_btst_reserved (k : BitVec 3) (r : Reg) : decode16 (pack16 0 (1#1 ++ k) 15 r) = none := by
  have hbit : (1#1 ++ k : BitVec 4).getLsbD 3 = true := by revert k; decide
  have hrow : decode16 (pack16 0 (1#1 ++ k) 15 r) = decode0 (pack16 0 (1#1 ++ k) 15 r) := by
    rw [decode16, opField_pack16]
    rfl
  rw [hrow, decode0, op2Field_pack16, r1Field_pack16]
  exact if_pos hbit

end Sys2Proof.Machine
end

section
/-!
The statements of the family of 42_compare_arith_logic.md.
-/

namespace Sys2Proof.Machine

/-- Settles O23: each is one `State.resultC`, of the truth its rule names. -/
theorem compareAndTestResults : Obligations.compare_and_test_results := by
  unfold Obligations.compare_and_test_results
  intro s a b r h k
  rw [← sext16_toInt h, ← sext16_toNat h]
  have hreserved := decode16_btst_reserved k r
  have hbtst : EncodedAs (.btst k r) (.half (pack16 0 (bitposR1 k) 15 r)) := encodedAs_of_encode rfl rfl
  rw [bitposR1, ← append_bitpos] at hbtst
  rw [← append_bitpos] at hreserved
  exact ⟨completesC_of_resultC rfl, encodedAs_of_encode rfl rfl,
    beq_eq_decide (s.getReg a) (s.getReg b) ▸ completesC_of_resultC rfl, encodedAs_of_encode rfl rfl,
    completesC_of_resultC rfl, encodedAs_of_encode rfl rfl,
    completesC_of_resultC rfl, encodedAs_of_encode rfl rfl,
    completesC_of_resultC rfl, encodedAs_of_encode rfl rfl,
    beq_zero_eq_decide_toNat (s.getReg r) ▸ completesC_of_resultC rfl, encodedAs_of_encode rfl rfl,
    someByteZero_eq_decide (s.getReg r) ▸ completesC_of_resultC rfl, encodedAs_of_encode rfl rfl,
    testedBit_eq_getMsbD (s.getReg r) k ▸ completesC_of_resultC rfl, hbtst, rfl, hreserved⟩

/-- Settles O24: each is one `State.result`, of a word sum or difference that is the exact one modulo 2^32. -/
theorem addSubResults : Obligations.add_sub_results := by
  unfold Obligations.add_sub_results
  intro s d r c h
  rw [← sext16_toInt h, ← sext8_toInt c]
  exact ⟨BitVec.add_def (s.getReg d) (s.getReg r) ▸ completesReg_of_result rfl, encodedAs_of_encode rfl rfl,
    add_eq_ofInt (s.getReg r) (sext16 h) ▸ completesReg_of_result rfl, encodedAs_of_encode rfl rfl,
    add_eq_ofInt (s.getReg d) (sext8 c) ▸ completesReg_of_result rfl, encodedAs_of_encode rfl rfl,
    zero_sub_eq_ofInt (s.getReg r) ▸ completesReg_of_result rfl, encodedAs_of_encode rfl rfl,
    sub_eq_ofInt (s.getReg d) (s.getReg r) ▸ completesReg_of_result rfl, encodedAs_of_encode rfl rfl⟩

/-- Settles O25: the meanings compute the exact signed number and `signedOverflow` of it. -/
theorem overflowCheckingResults : Obligations.overflow_checking_results := by
  unfold Obligations.overflow_checking_results
  intro s d r h
  rw [← sext16_toInt h]
  exact ⟨completesRegC_of_result rfl, encodedAs_of_encode rfl rfl,
    completesRegC_of_result rfl, encodedAs_of_encode rfl rfl,
    completesRegC_of_result rfl, encodedAs_of_encode rfl rfl⟩

/-- Settles O26: the meanings compute the exact number, which leaves 32 bits on one side only. -/
theorem carryResults : Obligations.carry_results := by
  unfold Obligations.carry_results
  intro s d r c
  exact ⟨addx_completes s d r, encodedAs_of_encode rfl rfl, subx_completes s d r, encodedAs_of_encode rfl rfl⟩

/-- Settles O27: each is one `State.result`, of a bitwise operation on words. -/
theorem logicResults : Obligations.logic_results := by
  unfold Obligations.logic_results
  intro s d r h
  rw [← zext16_toNat h]
  exact ⟨and_eq_ofNat (s.getReg d) (s.getReg r) ▸ completesReg_of_result rfl, encodedAs_of_encode rfl rfl,
    and_eq_ofNat (s.getReg r) (zext16 h) ▸ completesReg_of_result rfl, encodedAs_of_encode rfl rfl,
    not_eq_ofNat (s.getReg r) ▸ completesReg_of_result rfl, encodedAs_of_encode rfl rfl,
    or_eq_ofNat (s.getReg d) (s.getReg r) ▸ completesReg_of_result rfl, encodedAs_of_encode rfl rfl,
    or_eq_ofNat (s.getReg r) (zext16 h) ▸ completesReg_of_result rfl, encodedAs_of_encode rfl rfl,
    xor_eq_ofNat (s.getReg d) (s.getReg r) ▸ completesReg_of_result rfl, encodedAs_of_encode rfl rfl,
    xor_eq_ofNat (s.getReg r) (zext16 h) ▸ completesReg_of_result rfl, encodedAs_of_encode rfl rfl⟩

end Sys2Proof.Machine
end

section
/-!
SUPPORT. The numbers of the shift, divide and multiply instructions: counts and dividends in the low bits of a word
(R160, R174), shifts as multiplications and divisions by powers of 2 (R174 to R182), and the division that every divide
and remainder instruction makes (R160).
-/

namespace Sys2Proof.Machine

variable {i : Instr} {s : State} {d r : Reg}

/-! ## The low bits of a word -/

theorem extract_low_toNat {w : Nat} (x : BitVec w) (m : Nat) : (x.extractLsb' 0 m).toNat = x.toNat % 2 ^ m :=
  BitVec.extractLsb'_toNat ..

theorem countOfReg_eq_mod (v : Word) : countOfReg v = v.toNat % 32 :=
  extract_low_toNat v 5

theorem countOfImm16_eq_mod (c : Half) : countOfImm16 c = c.toNat % 32 :=
  extract_low_toNat c 5

theorem loByte_toNat (v : Word) : (loByte v).toNat = v.toNat % 256 :=
  extract_low_toNat v 8

theorem loHalf_toNat (v : Word) : (loHalf v).toNat = v.toNat % 65536 :=
  extract_low_toNat v 16

theorem toInt_eq_signedReading {w : Nat} (hw : 0 < w) (x : BitVec w) : x.toInt = signedReading w x.toNat := by
  have hpow : 2 ^ w = 2 * 2 ^ (w - 1) := by
    rw [← Nat.pow_succ', Nat.succ_eq_add_one, Nat.sub_add_cancel hw]
  rw [BitVec.toInt_eq_toNat_cond, signedReading]
  push_cast
  exact if_congr (by omega) rfl rfl

theorem signedByte_eq_signedReading (v : Word) : signedByte v = signedReading 8 (v.toNat % 256) := by
  rw [signedByte, toInt_eq_signedReading (by decide), loByte_toNat]

theorem signedHalf_eq_signedReading (v : Word) : signedHalf v = signedReading 16 (v.toNat % 65536) := by
  rw [signedHalf, toInt_eq_signedReading (by decide), loHalf_toNat]

/-! ## Shifts as numbers (R174 to R182) -/

theorem shiftLeft_eq_ofNat (v : Word) (n : Nat) : v <<< n = BitVec.ofNat 32 (v.toNat * 2 ^ n) := by
  apply BitVec.eq_of_toNat_eq
  rw [BitVec.toNat_shiftLeft, Nat.shiftLeft_eq, BitVec.toNat_ofNat]

theorem ushiftRight_eq_ofNat (v : Word) (n : Nat) : v >>> n = BitVec.ofNat 32 (v.toNat / 2 ^ n) := by
  rw [← Nat.shiftRight_eq_div_pow, ← BitVec.toNat_ushiftRight, BitVec.ofNat_toNat, BitVec.setWidth_eq]

theorem sshiftRight_eq_ofInt (v : Word) (n : Nat) : v.sshiftRight n = BitVec.ofInt 32 (v.toInt / 2 ^ n) := by
  rw [BitVec.sshiftRight, Int.shiftRight_eq_div_pow]
  push_cast
  rfl

/-- SLL, SLL3 and SLLI (R174 to R176). -/
theorem completesReg_of_shiftLeft {v len : Word} {n : Nat} (h : exec i s = .next (s.result d (v <<< n) len)) :
    CompletesReg i s d (BitVec.ofNat 32 (v.toNat * 2 ^ n)) len :=
  shiftLeft_eq_ofNat v n ▸ completesReg_of_result h

/-- SRA, SRA3 and SRAI (R177 to R179). -/
theorem completesReg_of_sshiftRight {v len : Word} {n : Nat} (h : exec i s = .next (s.result d (v.sshiftRight n) len)) :
    CompletesReg i s d (BitVec.ofInt 32 (v.toInt / 2 ^ n)) len :=
  sshiftRight_eq_ofInt v n ▸ completesReg_of_result h

/-- SRL, SRL3 and SRLI (R180 to R182). -/
theorem completesReg_of_ushiftRight {v len : Word} {n : Nat} (h : exec i s = .next (s.result d (v >>> n) len)) :
    CompletesReg i s d (BitVec.ofNat 32 (v.toNat / 2 ^ n)) len :=
  ushiftRight_eq_ofNat v n ▸ completesReg_of_result h

/-! ## Division (R160) -/

/-- R160 (a): a zero divisor keeps the destination. -/
theorem completesAt_of_divideBy {n : Int} (h : exec i s = divideBy d r n s) (hz : s.getReg r = 0) :
    CompletesAt i s (s.fallThrough 4) := by
  rw [CompletesAt, h]
  exact divideBy_zero hz n

/-- R160 (b), (c): another divisor writes the exact number modulo 2^32. -/
theorem completesReg_of_divideBy {n : Int} (h : exec i s = divideBy d r n s) (hnz : s.getReg r ≠ 0) :
    CompletesReg i s d (BitVec.ofInt 32 n) 4 := by
  rw [CompletesReg, h]
  exact divideBy_nonzero hnz n

/-- An instruction that is one `divideBy`, by the word `v` that the exact number is modulo 2^32. -/
theorem divides_of {n : Int} {v : Word} (h : exec i s = divideBy d r n s) (hv : BitVec.ofInt 32 n = v) :
    (s.getReg r = 0 → CompletesAt i s (s.fallThrough 4)) ∧ (s.getReg r ≠ 0 → CompletesReg i s d v 4) :=
  ⟨completesAt_of_divideBy h, hv ▸ completesReg_of_divideBy h⟩

/-- R160 (d): of -2^31 by -1, DIV and REM write a free value. -/
theorem divideWordBy_of_overflow (hd : s.getReg d = 0x80000000) (hr : s.getReg r = 0xFFFFFFFF) (n : Int) :
    divideWordBy d r n s = .next ((s.drawn 1).result d s.freeWord 4) :=
  if_pos ⟨hd, hr⟩

/-- But for -2^31 by -1, DIV and REM divide as the others do. -/
theorem divideWordBy_eq_divideBy (h : ¬ (s.getReg d = 0x80000000 ∧ s.getReg r = 0xFFFFFFFF)) (n : Int) :
    divideWordBy d r n s = divideBy d r n s :=
  if_neg h

/-- An instruction that is one `divideWordBy`, in the three cases of R160. -/
theorem dividesWord_of {n m : Int} (h : exec i s = divideWordBy d r n s) (hm : n = m) :
    (s.getReg r = 0 → CompletesAt i s (s.fallThrough 4)) ∧
      (s.getReg d = 0x80000000 → s.getReg r = 0xFFFFFFFF → ∃ v, CompletesReg i s d v 4) ∧
      (s.getReg r ≠ 0 → ¬ (s.getReg d = 0x80000000 ∧ s.getReg r = 0xFFFFFFFF) →
        CompletesReg i s d (BitVec.ofInt 32 m) 4) := by
  refine ⟨fun hz => ?zero, fun hd hr => ?overflow, fun hnz hno => ?number⟩
  case zero =>
    have hno : ¬ (s.getReg d = 0x80000000 ∧ s.getReg r = 0xFFFFFFFF) := by simp [hz]
    exact completesAt_of_divideBy (h.trans (divideWordBy_eq_divideBy hno n)) hz
  case overflow =>
    exact ⟨_, _, h.trans (divideWordBy_of_overflow hd hr n), s.drawn_result_leaves 1 d s.freeWord 4⟩
  case number =>
    rw [← hm]
    exact completesReg_of_divideBy (h.trans (divideWordBy_eq_divideBy hno n)) hnz

/-- The remainder that goes with the quotient rounded toward zero (R160). -/
theorem tmod_eq_sub_tdiv_mul (n m : Int) : Int.tmod n m = n - Int.tdiv n m * m := by
  rw [Int.tmod_def, Int.mul_comm]

/-! ## MUL (R167) -/

/-- A result goes to one register cell, and both accumulators and the count of free values are written as well. -/
theorem State.result_writeAccs_leaves (s : State) (d : Reg) (v len : Word) (x y : BitVec 56) (k : Nat) :
    Leaves s (({ s.result d v len with acc0 := x, acc1 := y } : State).drawn k) (s.fallThrough len)
      (regs := [(s.physReg d, v)]) (acc0 := x) (acc1 := y) := by
  have hresult := s.result_leaves d v len
  exact { hresult with
    regs := fun p => (State.readStore_congr rfl rfl rfl p).trans (hresult.regs p)
    acc0 := rfl
    acc1 := rfl }

end Sys2Proof.Machine
end

section
/-!
The statements of the family of 43_muldiv_shift.md.
-/

namespace Sys2Proof.Machine

/-- Settles O28: each is one `State.result`, of a shift by the low 5 bits of its count. -/
theorem shiftResults : Obligations.shift_results := by
  unfold Obligations.shift_results
  intro s d r h k
  rw [← countOfReg_eq_mod (s.getReg r), ← countOfImm16_eq_mod h]
  exact ⟨completesReg_of_shiftLeft rfl, encodedAs_of_encode rfl rfl, rfl,
    completesReg_of_shiftLeft rfl, encodedAs_of_encode rfl rfl,
    completesReg_of_shiftLeft rfl, encodedAs_of_encode rfl rfl, rfl,
    completesReg_of_sshiftRight rfl, encodedAs_of_encode rfl rfl, rfl,
    completesReg_of_sshiftRight rfl, encodedAs_of_encode rfl rfl,
    completesReg_of_sshiftRight rfl, encodedAs_of_encode rfl rfl, rfl,
    completesReg_of_ushiftRight rfl, encodedAs_of_encode rfl rfl, rfl,
    completesReg_of_ushiftRight rfl, encodedAs_of_encode rfl rfl,
    completesReg_of_ushiftRight rfl, encodedAs_of_encode rfl rfl, rfl⟩

/-- Settles O29: each is one `divideBy`, of the truncated quotient or its remainder, but DIV and REM of -2^31 by -1. -/
theorem signedDivisionAndRemainder : Obligations.signed_division_and_remainder := by
  unfold Obligations.signed_division_and_remainder
  intro s d r q
  have hrem (n : Int) : Int.tmod n (s.getReg r).toInt = q n := tmod_eq_sub_tdiv_mul n _
  rw [← signedByte_eq_signedReading, ← signedHalf_eq_signedReading]
  refine ⟨?div, ?divb, ?divh, ?rem, ?remb, ?remh⟩
  case div =>
    obtain ⟨hzero, hoverflow, hnumber⟩ := dividesWord_of (i := .div d r) rfl rfl
    exact ⟨hzero, hoverflow, hnumber, encodedAs_of_encode rfl rfl⟩
  case rem =>
    obtain ⟨hzero, hoverflow, hnumber⟩ := dividesWord_of (i := .rem d r) rfl (hrem (s.getReg d).toInt)
    exact ⟨hzero, hoverflow, hnumber, encodedAs_of_encode rfl rfl⟩
  case divb => exact and_assoc.1 ⟨divides_of rfl rfl, encodedAs_of_encode rfl rfl⟩
  case divh => exact and_assoc.1 ⟨divides_of rfl rfl, encodedAs_of_encode rfl rfl⟩
  case remb => exact and_assoc.1 ⟨divides_of rfl (congrArg _ (hrem _)), encodedAs_of_encode rfl rfl⟩
  case remh => exact and_assoc.1 ⟨divides_of rfl (congrArg _ (hrem _)), encodedAs_of_encode rfl rfl⟩

/-- Settles O30: each is one `divideBy`, of a natural number. -/
theorem unsignedDivisionAndRemainder : Obligations.unsigned_division_and_remainder := by
  unfold Obligations.unsigned_division_and_remainder
  intro s d r
  rw [← loByte_toNat, ← loHalf_toNat]
  have hdiv (n : Nat) := BitVec.ofInt_natCast 32 (n / (s.getReg r).toNat)
  have hmod (n : Nat) := BitVec.ofInt_natCast 32 (n % (s.getReg r).toNat)
  exact ⟨and_assoc.1 ⟨divides_of rfl (hdiv _), encodedAs_of_encode rfl rfl⟩,
    and_assoc.1 ⟨divides_of rfl (hdiv _), encodedAs_of_encode rfl rfl⟩,
    and_assoc.1 ⟨divides_of rfl (hdiv _), encodedAs_of_encode rfl rfl⟩,
    and_assoc.1 ⟨divides_of rfl (hmod _), encodedAs_of_encode rfl rfl⟩,
    and_assoc.1 ⟨divides_of rfl (hmod _), encodedAs_of_encode rfl rfl⟩,
    and_assoc.1 ⟨divides_of rfl (hmod _), encodedAs_of_encode rfl rfl⟩⟩

/-- Settles O31: MUL is a `State.result` with both accumulators written. -/
theorem mulProductAndAccumulators : Obligations.mul_product_and_accumulators := by
  unfold Obligations.mul_product_and_accumulators
  intro s d r
  exact ⟨⟨_, _, _, rfl, s.result_writeAccs_leaves d _ 2 _ _ 2⟩, encodedAs_of_encode rfl rfl, rfl⟩

end Sys2Proof.Machine
end

section
/-!
SUPPORT. The branches, calls and skip instructions: targets and links as addresses (R190), an instruction that is one
branch or one call, where an instruction can go on, and a pair whose upper member leaves the state to its partner (R74
to R78).
-/

namespace Sys2Proof.Machine

variable {i : Instr} {s t : State} {target target' len : Word} {taken : Bool}

/-! ## Targets and the link (R190) -/

/-- A displacement in words from a word address, as a sum modulo 2^32. -/
theorem add_shiftLeft_two_eq_ofInt (base d : Word) : base + (d <<< 2) = BitVec.ofInt 32 (base.toNat + 4 * d.toInt) := by
  have hd : d <<< 2 = 4 * d := by
    rw [BitVec.shiftLeft_eq_mul_twoPow, BitVec.mul_comm]
    rfl
  rw [hd, BitVec.ofInt_add, BitVec.ofInt_mul, BitVec.ofInt_natCast, BitVec.ofInt_toInt, BitVec.ofNat_toNat,
    BitVec.setWidth_eq]
  rfl

theorem State.wordBase_add_eq_relative (s : State) {w : Nat} (hw : w ≤ 32) (d : BitVec w) :
    s.wordBase + (d.signExtend 32 <<< 2) = s.relative d.toInt := by
  rw [add_shiftLeft_two_eq_ofInt, BitVec.toInt_signExtend_of_le hw, s.wordBase_toNat, State.relative]

theorem State.target8_eq_relative (s : State) (d : BitVec 8) : s.target8 d = s.relative d.toInt :=
  s.wordBase_add_eq_relative (by decide) d

theorem State.target16_eq_relative (s : State) (d : Half) : s.target16 d = s.relative d.toInt :=
  s.wordBase_add_eq_relative (by decide) d

theorem State.target24_eq_relative (s : State) (d : BitVec 24) : s.target24 d = s.relative d.toInt :=
  s.wordBase_add_eq_relative (by decide) d

theorem State.targetReg_eq_aligned (s : State) (b : Reg) : s.targetReg b = aligned (s.getReg b) := by
  have hbase : (s.targetReg b).toNat = (s.getReg b).toNat / 4 * 4 := (s.goto (s.getReg b)).wordBase_toNat
  rw [aligned, ← hbase, BitVec.ofNat_toNat, BitVec.setWidth_eq]

/-- A branch with displacement 0 goes to its own word (R204). -/
theorem State.relative_zero (h : s.pc.toNat % 4 = 0) : s.relative 0 = s.pc := by
  have hstart : s.wordStart = s.pc.toNat := Nat.div_mul_cancel (Nat.dvd_of_mod_eq_zero h)
  rw [State.relative, hstart, Int.mul_zero, Int.add_zero, BitVec.ofInt_natCast, BitVec.ofNat_toNat, BitVec.setWidth_eq]

/-- The word after the one that holds the instruction. -/
theorem State.wordBase_add_four (s : State) : s.wordBase + 4 = s.linkValue := by
  rw [State.linkValue, ← s.wordBase_toNat, BitVec.ofNat_add, BitVec.ofNat_toNat, BitVec.setWidth_eq]
  rfl

/-! ## An instruction that is one branch or one call -/

theorem completesAt_of_branchIf {p : Prop} [Decidable p] (h : exec i s = branchIf taken target len s)
    (hp : taken = true ↔ p) (ht : target = target') : CompletesAt i s (if p then target' else s.fallThrough len) := by
  subst ht
  rw [CompletesAt, h, ← if_congr hp rfl rfl]
  exact branchIf_leaves taken target len s

theorem completesAt_of_goto (h : exec i s = .next (s.goto target)) (ht : target = target') : CompletesAt i s target' :=
  ⟨_, h, ht ▸ s.goto_leaves target⟩

theorem completesLink_of_link_goto (h : exec i s = .next (s.link.goto target)) (ht : target = target') :
    CompletesLink i s target' := by
  refine ⟨_, h, ?_⟩
  rw [← ht, ← s.wordBase_add_four]
  exact s.link_goto_leaves target

theorem completesLink_of_branchLinkIf {p : Prop} [Decidable p] (h : exec i s = branchLinkIf taken target len s)
    (hp : taken = true ↔ p) (ht : target = target') :
    if p then CompletesLink i s target' else CompletesAt i s (s.fallThrough len) := by
  rw [← if_congr hp rfl rfl]
  cases taken
  case false => exact ⟨_, h, s.advance_leaves len⟩
  case true => exact completesLink_of_link_goto h ht

/-! ## Where an instruction goes on -/

/-- R280: the entries are word-aligned. -/
theorem State.eitVector_aligned (s : State) (k : Eit) : (s.eitVector k).toNat % 4 = 0 := by
  rw [State.eitVector, BitVec.toNat_append, Nat.shiftLeft_eq]
  simp

/-- R190 (c), R280: but for RTE, an instruction falls through or goes to a word boundary. -/
theorem MayEnd.pc_fallThrough_or_aligned (h : MayEnd i s t) (hi : i ≠ .rte) :
    t.pc = s.fallThrough (BitVec.ofNat 32 i.size) ∨ t.pc.toNat % 4 = 0 := by
  cases h with
  | completes _ ha =>
    obtain ha | ha | ⟨hrte, -⟩ := ha
    · exact .inl ha
    · exact .inr ha
    · exact absurd hrte hi
  | cancels hskip => obtain rfl | rfl := hskip <;> exact .inl rfl
  | raises k => exact .inr (s.eitVector_aligned k)
  | traps n => exact .inr (s.eitVector_aligned (.trap n))

/-! ## SC and SNC (R210, R211) -/

theorem skipPartnerIf_alone (hs : s.issue = .alone) (cancel : Bool) : skipPartnerIf cancel s = .next (s.advance 2) := by
  simp only [skipPartnerIf, hs]

theorem skipPartnerIf_paired (hs : s.issue = .paired) (cancel : Bool) :
    skipPartnerIf cancel s = .next (if cancel then { s.advance 2 with issue := .cancelsPartner } else s.advance 2) := by
  simp only [skipPartnerIf, hs]

/-- D30: on its own the instruction does nothing. -/
theorem completesAt_of_skipPartnerIf {cancel : Bool} (h : exec i s = skipPartnerIf cancel s) (hs : s.issue = .alone) :
    CompletesAt i s (s.pc + 2) := by
  rw [← State.fallThrough_alone hs]
  exact ⟨_, h.trans (skipPartnerIf_alone hs cancel), s.advance_leaves 2⟩

/-- R77: an upper member that cancels its partner is all that the pair does. -/
theorem runPair_leaves_of_cancel {a : Instr} {cancel : Bool} (b : Instr) (hs : s.issue = .alone)
    (ha : exec a { s with issue := .paired } = skipPartnerIf cancel { s with issue := .paired })
    (hc : cancel = true) : ∃ t, runPair a b s = .next t ∧ Leaves s t (BitVec.ofNat 32 (s.wordStart + 4)) := by
  subst hc
  refine ⟨_, runPair_alone b (ha.trans (skipPartnerIf_paired rfl true)) (.inr rfl), ?_⟩
  apply Leaves.withoutStore
  case hpc => exact s.wordBase_add_four
  case hregs => exact fun p => State.readStore_congr rfl rfl rfl p
  case hissue => exact hs.symm
  all_goals rfl

/-! ## The lower member of a pair -/

/-- R74: a lower member is of category OS or -S. -/
theorem category_of_pairAllowed {a b : Instr} (h : pairAllowed a b = true) :
    category b = .both ∨ category b = .right := by
  unfold pairAllowed at h
  split at h
  next hb => exact .inl hb
  next hb => exact .inr hb
  next hb => exact .inl hb
  next hb => exact .inr hb
  next hb => exact .inl hb
  next => cases h

/-- The instruction completes, and of PSW it writes at most C, and that only where R34 lists it. -/
def CompletesKeepingPsw (i : Instr) (s : State) : Prop :=
  ∃ u c, exec i s = .next u ∧ u.psw = { s.psw with c := c } ∧ (writesC i = false → c = s.psw.c)

theorem completesKeepingPsw_of_psw_eq (h : exec i s = .next t) (hpsw : t.psw = s.psw) : CompletesKeepingPsw i s :=
  ⟨t, s.psw.c, h, hpsw, fun _ => rfl⟩

theorem completesKeepingPsw_of_writesC {c : Bool} (h : exec i s = .next t) (hpsw : t.psw = { s.psw with c := c })
    (hc : writesC i = true) : CompletesKeepingPsw i s :=
  ⟨t, c, h, hpsw, fun hno => absurd (hc.symm.trans hno) Bool.noConfusion⟩

theorem State.result_psw (s : State) (d : Reg) (v len : Word) : (s.result d v len).psw = s.psw :=
  s.setReg_psw d v

theorem State.resultAcc_psw (s : State) (a : Acc) (v : BitVec 64) (len : Word) : (s.resultAcc a v len).psw = s.psw :=
  s.writeAcc_psw a v

/-- An instruction of category OS or -S raises nothing, is never refused, and writes no mode bit. -/
theorem completesKeepingPsw_of_category (s : State) (hi : category i = .both ∨ category i = .right) :
    CompletesKeepingPsw i s := by
  cases i with
  | sub d _ | neg d _ | add d _ | not d _ | and d _ | xor d _ | or d _ | srl d _ | sra d _ | sll d _ | mv d _
  | addi d _ | srli d _ | srai d _ | slli d _ | mvfachi d _ | mvfaclo d _ | mvfacmi d _ | ldi8 d _ | mul d _ =>
    exact completesKeepingPsw_of_psw_eq rfl (s.result_psw d _ 2)
  | subv d _ | subx d _ | addv d _ | addx d _ =>
    exact completesKeepingPsw_of_writesC rfl (State.result_psw _ d _ 2) rfl
  | cmp | cmpu | cmpeq | cmpz | pcmpbz | btst => exact completesKeepingPsw_of_writesC rfl rfl rfl
  | mulhi | mullo | mulwhi | mulwlo | machi | maclo | macwhi | macwlo | mvtachi | mvtaclo | rach | rac | mulwu1
  | macwu1 | maclh1 | msblo | sadd => exact completesKeepingPsw_of_psw_eq rfl (s.resultAcc_psw _ _ 2)
  | nop => exact completesKeepingPsw_of_psw_eq rfl rfl
  | _ => obtain hi | hi := hi <;> cases hi

/-! ## A pair whose upper member only moves on -/

/-- The pair `a`, `b` is `b` alone, with the pc at the next word. -/
def RunsLowerAlone (a b : Instr) (s : State) : Prop :=
  ∃ t u, runPair a b s = .next t ∧ exec b { s with issue := .paired } = .next u ∧
    t.pc = BitVec.ofNat 32 (s.wordStart + 4) ∧ (∀ p, t.readStore p = u.readStore p) ∧ t.psw = u.psw ∧
    t.acc0 = u.acc0 ∧ t.acc1 = u.acc1 ∧ t.mem = s.mem

/-- Where A has written no cell, the merge holds B's. -/
theorem readStore_mergePair_of_idle {a b : Instr} {ta tb : State} (hb : exec b { s with issue := .paired } = .next tb)
    (hra : writtenRegs a s = []) (p : Store) (hta : ta.readStore p = s.readStore p) :
    (mergePair a b s ta tb).readStore p = tb.readStore p := by
  by_cases hp : p ∈ writtenRegs b s
  · exact readStore_mergePair_in hp (by simp [hra]) ta tb
  · have htb : tb.readStore p = s.readStore p := (exec_mayEnd hb).readStore_eq hp
    rw [readStore_mergePair_out hp, hta, htb]

/-- Where A has not written the accumulator, the merge holds B's. -/
theorem accBits_mergePair_of_idle {b : Instr} {ta tb : State} (a : Instr)
    (hb : exec b { s with issue := .paired } = .next tb) (x : Acc) (hta : ta.accBits x = s.accBits x) :
    (mergePair a b s ta tb).accBits x = tb.accBits x := by
  rw [accBits_mergePair]
  split
  next => rfl
  next hx =>
    have htb : tb.accBits x = s.accBits x := (exec_mayEnd hb).accBits_eq (Bool.eq_false_iff.2 hx)
    rw [hta, htb]

/-- Where A has left PSW and writes no C, the merge holds B's PSW. -/
theorem mergePair_psw_of_idle {a b : Instr} {ta tb : State} {c : Bool} (hca : writesC a = false)
    (htb : tb.psw = { s.psw with c := c }) (hc : writesC b = false → c = s.psw.c) (hta : ta.psw = s.psw) :
    (mergePair a b s ta tb).psw = tb.psw := by
  obtain ⟨-, -, -, -, -, -, -, -, -, hkept⟩ := mergePair_frame a b s ta tb
  have hcond : (mergePair a b s ta tb).psw.c = c := by
    cases hcb : writesC b
    · rw [mergePair_c_of_not_writes hcb, hta, hc hcb]
    · rw [mergePair_c_of_only_b hcb hca, htb]
  calc (mergePair a b s ta tb).psw
    _ = { { (mergePair a b s ta tb).psw with c := ta.psw.c } with c := (mergePair a b s ta tb).psw.c } := rfl
    _ = tb.psw := by rw [hkept, hcond, hta, htb]

/-- R77: SC or SNC that does not cancel its partner leaves the pair to it. -/
theorem runsLowerAlone_of_not_cancel {a b : Instr} {cancel : Bool} (hab : pairAllowed a b = true)
    (hca : writesC a = false) (hra : writtenRegs a s = [])
    (ha : exec a { s with issue := .paired } = skipPartnerIf cancel { s with issue := .paired })
    (hc : cancel = false) : RunsLowerAlone a b s := by
  subst hc
  obtain ⟨tb, c, hb, htb, hcb⟩ :=
    completesKeepingPsw_of_category { s with issue := .paired } (category_of_pairAllowed hab)
  obtain ⟨hpc, hmem, -⟩ := mergePair_frame a b s (State.advance { s with issue := .paired } 2) tb
  refine ⟨_, tb, runPair_merges (ha.trans (skipPartnerIf_paired rfl false)) rfl hb, hb,
    hpc.trans s.wordBase_add_four, fun p => ?_, mergePair_psw_of_idle hca htb hcb rfl,
    accBits_mergePair_of_idle a hb .a0 rfl, accBits_mergePair_of_idle a hb .a1 rfl, hmem⟩
  rw [readStore_settle]
  exact readStore_mergePair_of_idle hb hra p (State.readStore_congr rfl rfl rfl p)

end Sys2Proof.Machine
end

section
/-!
The statements of the family of 44_branch.md.
-/

namespace Sys2Proof.Machine

/-- Settles O39: each is one `branchIf`, on C. -/
theorem branchesOnC : Obligations.branches_on_c := by
  unfold Obligations.branches_on_c
  intro s r p w
  have hnc : (!s.psw.c) = true ↔ s.psw.c = false := iff_of_eq (Bool.not_eq_true' _)
  exact ⟨completesAt_of_branchIf rfl Iff.rfl (s.target8_eq_relative p), encodedAs_of_encode rfl rfl,
    completesAt_of_branchIf rfl Iff.rfl (s.target24_eq_relative w), encodedAs_of_encode rfl rfl,
    completesAt_of_branchIf rfl hnc (s.target8_eq_relative p), encodedAs_of_encode rfl rfl,
    completesAt_of_branchIf rfl hnc (s.target24_eq_relative w), encodedAs_of_encode rfl rfl,
    completesAt_of_branchIf rfl Iff.rfl (s.targetReg_eq_aligned r), encodedAs_of_encode rfl rfl,
    completesAt_of_branchIf rfl hnc (s.targetReg_eq_aligned r), encodedAs_of_encode rfl rfl⟩

/-- Settles O40: each is one `branchIf`, on the truth its rule names. -/
theorem compareAndBranch : Obligations.compare_and_branch := by
  unfold Obligations.compare_and_branch
  intro s a b r h
  have htarget := s.target16_eq_relative h
  have hzero : (s.getReg r).toInt = 0 ↔ s.getReg r = 0 := BitVec.toInt_inj (y := 0)
  exact ⟨completesAt_of_branchIf rfl beq_iff_eq htarget, encodedAs_of_encode rfl rfl,
    completesAt_of_branchIf rfl bne_iff_ne htarget, encodedAs_of_encode rfl rfl,
    completesAt_of_branchIf rfl (beq_iff_eq.trans hzero.symm) htarget, encodedAs_of_encode rfl rfl,
    completesAt_of_branchIf rfl (bne_iff_ne.trans (not_congr hzero.symm)) htarget, encodedAs_of_encode rfl rfl,
    completesAt_of_branchIf rfl decide_eq_true_iff htarget, encodedAs_of_encode rfl rfl,
    completesAt_of_branchIf rfl decide_eq_true_iff htarget, encodedAs_of_encode rfl rfl,
    completesAt_of_branchIf rfl decide_eq_true_iff htarget, encodedAs_of_encode rfl rfl,
    completesAt_of_branchIf rfl decide_eq_true_iff htarget, encodedAs_of_encode rfl rfl⟩

/-- Settles O41: BRA and JMP are a `branchIf` that is always taken, NOP is `State.advance`. -/
theorem unconditionalBranchesAndNop : Obligations.unconditional_branches_and_nop := by
  unfold Obligations.unconditional_branches_and_nop
  intro s r p w
  have hself (h : s.pc.toNat % 4 = 0) : CompletesAt (.bra8 0) s s.pc ∧ CompletesAt (.bra24 0) s s.pc :=
    ⟨completesAt_of_goto rfl ((s.target8_eq_relative 0).trans (State.relative_zero h)),
      completesAt_of_goto rfl ((s.target24_eq_relative 0).trans (State.relative_zero h))⟩
  exact ⟨completesAt_of_goto rfl (s.target8_eq_relative p), encodedAs_of_encode rfl rfl,
    completesAt_of_goto rfl (s.target24_eq_relative w), encodedAs_of_encode rfl rfl,
    completesAt_of_goto rfl (s.targetReg_eq_aligned r), encodedAs_of_encode rfl rfl,
    hself, ⟨_, rfl, s.advance_leaves 2⟩, encodedAs_of_encode rfl rfl, rfl, rfl⟩

/-- Settles O42: each is one `branchLinkIf`, but JL R14, which is refused. -/
theorem calls : Obligations.calls := by
  unfold Obligations.calls
  intro s r p w
  have hnc : (!s.psw.c) = true ↔ s.psw.c = false := iff_of_eq (Bool.not_eq_true' _)
  have hjl : if r = 14 then exec (.jl r) s = .refused .jumpLinkThroughLink
      else CompletesLink (.jl r) s (aligned (s.getReg r)) := by
    split
    next hr => exact if_pos hr
    next hr => exact completesLink_of_link_goto (if_neg hr) (s.targetReg_eq_aligned r)
  exact ⟨completesLink_of_branchLinkIf rfl Iff.rfl (s.target8_eq_relative p), encodedAs_of_encode rfl rfl,
    completesLink_of_branchLinkIf rfl Iff.rfl (s.target24_eq_relative w), encodedAs_of_encode rfl rfl,
    completesLink_of_branchLinkIf rfl hnc (s.target8_eq_relative p), encodedAs_of_encode rfl rfl,
    completesLink_of_branchLinkIf rfl hnc (s.target24_eq_relative w), encodedAs_of_encode rfl rfl,
    completesLink_of_link_goto rfl (s.target8_eq_relative p), encodedAs_of_encode rfl rfl,
    completesLink_of_link_goto rfl (s.target24_eq_relative w), encodedAs_of_encode rfl rfl,
    hjl, encodedAs_of_encode rfl rfl⟩

/-- Settles O43: a member that cancels its partner is the pair, and one that does not leaves the pair to it. -/
theorem skipInstructions : Obligations.skip_instructions := by
  unfold Obligations.skip_instructions
  intro s b
  exact ⟨fun hs => ⟨completesAt_of_skipPartnerIf rfl hs, completesAt_of_skipPartnerIf rfl hs⟩,
    fun hs _ hc => runPair_leaves_of_cancel b hs rfl hc,
    fun hs _ hc => runPair_leaves_of_cancel b hs rfl (congrArg Bool.not hc),
    fun hab hc => runsLowerAlone_of_not_cancel hab rfl rfl rfl hc,
    fun hab hc => runsLowerAlone_of_not_cancel hab rfl rfl rfl (congrArg Bool.not hc),
    encodedAs_of_encode rfl rfl, rfl, encodedAs_of_encode rfl rfl, rfl⟩

/-- Settles O51, by the ways in which an instruction can end. -/
theorem branchTargetsWordAligned : Obligations.branch_targets_word_aligned := by
  unfold Obligations.branch_targets_word_aligned
  intro i s t h hi
  exact (exec_mayEnd h).pc_fallThrough_or_aligned hi

end Sys2Proof.Machine
end

section
/-!
SUPPORT. BSET and BCLR as writes of one bit of a byte (R220, R221), SETPSW and CLRPSW as writes of named bits of PSW
(R223, R224), and the entry and the return of an EIT with their frames (R225, R226).
-/

namespace Sys2Proof.Machine

variable {i : Instr} {s : State} {ea : Word}

/-! ## One bit of a byte (R220, R221) -/

theorem bitOfByte_eq_twoPow (k : BitVec 3) : bitOfByte k = BitVec.twoPow 8 (7 - k.toNat) := by
  revert k; decide

/-- The mask of BSET and BCLR has a 1 at the bit that `bitpos` names, 0 the most significant. -/
theorem bitOfByte_getMsbD (k : BitVec 3) (j : Nat) : (bitOfByte k).getMsbD j = decide (j = k.toNat) := by
  have hplace : 8 - (7 - k.toNat) - 1 = k.toNat := by omega
  have hlt : 7 - k.toNat < 8 := by omega
  rw [bitOfByte_eq_twoPow, BitVec.getMsbD_twoPow, hplace, decide_eq_true hlt, Bool.true_and]

theorem or_bitOfByte_getMsbD (x : Byte) (k : BitVec 3) (j : Nat) :
    (x ||| bitOfByte k).getMsbD j = if j = k.toNat then true else x.getMsbD j := by
  rw [BitVec.getMsbD_or, bitOfByte_getMsbD k j]
  split
  next h => rw [decide_eq_true h, Bool.or_true]
  next h => rw [decide_eq_false h, Bool.or_false]

theorem and_not_bitOfByte_getMsbD (x : Byte) (k : BitVec 3) {j : Nat} (hj : j < 8) :
    (x &&& ~~~bitOfByte k).getMsbD j = if j = k.toNat then false else x.getMsbD j := by
  rw [BitVec.getMsbD_and, BitVec.getMsbD_not, bitOfByte_getMsbD k j, decide_eq_true hj, Bool.true_and]
  split
  next h => rw [decide_eq_true h, Bool.not_true, Bool.and_false]
  next h => rw [decide_eq_false h, Bool.not_false, Bool.and_true]

/-- An instruction that changes a byte is a guarded store of the changed byte. -/
theorem stores_of_changeByte {x : Byte} (h : exec i s = changeByte ea x s) (hs : s.mem.wf = true) :
    Stores i s ea [x] 4 :=
  stores_of h (fun _ => State.storeByte_bytes hs ea x) rfl

/-- The printed word `oooo 0ttt pppp ssss qqqq qqqq qqqq qqqq` is the packed one. -/
theorem append_bitpos_disp (k : BitVec 3) (a c d : BitVec 4) (q : Half) :
    (a ++ 0b0#1 ++ k ++ c ++ d ++ q : BitVec (4 + 1 + 3 + 4 + 4 + 16)) = pack32 a (bitposR1 k) c d q :=
  congrArg (· ++ q) (append_bitpos 0 k a c d)

/-! ## Named bits of PSW (R223, R224) -/

/-- PSW as a word, by weights: the bit of weight 2^n is the manual's bit `31 - n` (R15). -/
theorem Psw.toWord_getLsbD (p : Psw) {n : Nat} (hn : n < 32) : p.toWord.getLsbD n = p.bit (31 - n) := by
  rw [BitVec.getLsbD_eq_getMsbD, decide_eq_true hn, Bool.true_and, Psw.toWord_getMsbD]

/-- The mask of SETPSW: bits beyond `imm8` are 0. -/
theorem setMask_getLsbD (m : BitVec 8) {n : Nat} (hn : n < 32) : (m.setWidth 32).getLsbD n = m.getLsbD n := by
  rw [BitVec.getLsbD_setWidth, decide_eq_true hn, Bool.true_and]

/-- The mask of CLRPSW: bits beyond `imm8` are 1. -/
theorem clearMask_getLsbD (m : BitVec 8) {n : Nat} (hn : n < 32) :
    (~~~(m.setWidth 32) ||| 0xFFFFFF00).getLsbD n = !m.getLsbD n := by
  have hkeep : ∀ n < 32, (0xFFFFFF00 : Word).getLsbD n = decide (8 ≤ n) := by decide
  rw [BitVec.getLsbD_or, BitVec.getLsbD_not, setMask_getLsbD m hn, hkeep n hn, decide_eq_true hn, Bool.true_and]
  by_cases h8 : 8 ≤ n
  · rw [BitVec.getLsbD_of_ge m n h8, Bool.not_false, Bool.true_or]
  · rw [decide_eq_false h8, Bool.or_false]

/-- SETPSW sets the named bits of b24 to b31 and keeps the BPSW field (R224). -/
theorem Psw.set_eq (p : Psw) (m : BitVec 8) :
    p.set m =
      { p with
        sm := p.sm || m.getMsbD 0, ie := p.ie || m.getMsbD 1, pm := p.pm || m.getMsbD 4
        ce := p.ce || m.getMsbD 5, c := p.c || m.getMsbD 7 } := by
  have hbit {n : Nat} (hn : n < 32) : (p.toWord ||| m.setWidth 32).getLsbD n = (p.bit (31 - n) || m.getLsbD n) := by
    rw [BitVec.getLsbD_or, p.toWord_getLsbD hn, setMask_getLsbD m hn]
  simp only [Psw.set, Psw.ofWord, hbit, Nat.reduceLT]
  simp [Psw.bit, BitVec.getMsbD_eq_getLsbD]

/-- CLRPSW clears the named bits of b24 to b31 and keeps the BPSW field (R223). -/
theorem Psw.clear_eq (p : Psw) (m : BitVec 8) :
    p.clear m =
      { p with
        sm := p.sm && !m.getMsbD 0, ie := p.ie && !m.getMsbD 1, pm := p.pm && !m.getMsbD 4
        ce := p.ce && !m.getMsbD 5, c := p.c && !m.getMsbD 7 } := by
  have hbit {n : Nat} (hn : n < 32) :
      (p.toWord &&& (~~~(m.setWidth 32) ||| 0xFFFFFF00)).getLsbD n = (p.bit (31 - n) && !m.getLsbD n) := by
    rw [BitVec.getLsbD_and, p.toWord_getLsbD hn, clearMask_getLsbD m hn]
  simp only [Psw.clear, Psw.ofWord, hbit, Nat.reduceLT]
  simp [Psw.bit, BitVec.getMsbD_eq_getLsbD]

/-- A privileged instruction that writes PSW and moves on. -/
theorem completesPsw_of_privileged {p p' : Psw} {len : Word}
    (h : exec i s = privileged s (.next (({ s with psw := p } : State).advance len))) (hp : s.psw.pm = false)
    (hpsw : p = p') : CompletesPsw i s p' len := by
  subst hpsw
  exact ⟨_, h.trans (privileged_supervisor hp _), s.writeControl_advance_leaves p s.evb s.evbWritten s.bpc len⟩

/-- SETPSW with 1s at bits of PSW only (R224). -/
theorem execSetpsw_supported {m : BitVec 8} (h : m &&& 0x32 = 0) (s : State) :
    execSetpsw m s = privileged s (.next (({ s with psw := s.psw.set m } : State).advance 2)) :=
  congrArg (privileged s) (if_pos ((Psw.supports_setWidth m).2 h))

/-- SETPSW with a 1 elsewhere: the refusal of decision D5, after the check of the mode (R224). -/
theorem execSetpsw_unsupported {m : BitVec 8} (h : m &&& 0x32 ≠ 0) (s : State) :
    execSetpsw m s = privileged s (.refused .fixedZeroBit) :=
  congrArg (privileged s) (if_neg (mt (Psw.supports_setWidth m).1 h))

/-- A privileged instruction in user mode raises PIE, whatever its effect (R273). -/
theorem raises_pie_of_privileged {e : Result} (h : exec i s = privileged s e) (hp : s.psw.pm = true) :
    Raises i s .pie :=
  raises_of (h.trans (privileged_user hp e))

/-! ## The entry and the return of an EIT (R225, R226, R278) -/

/-- The entry sequence and its frame, where no pair is given up. -/
theorem State.eitEntry_entered (s : State) (k : Eit) (b : Word) : Entered s (s.eitEntry k b) k b := by
  apply Leaves.withoutStore
  case hregs => exact s.readStore_eitEntry k b
  all_goals rfl

/-- The next instruction's address, alone and in a pair (R66, R78). -/
theorem State.fallThrough_eq_ite (s : State) (len : Word) :
    s.fallThrough len = if s.issue = .alone then s.pc + len else BitVec.ofNat 32 (s.wordStart + 4) := by
  split
  next hs => exact State.fallThrough_alone hs len
  next hs => exact (State.fallThrough_in_pair hs len).trans s.wordBase_add_four

/-- BPC with its lowest bit 0, as a number. -/
theorem and_evenMask_eq_ofNat (v : Word) : v &&& 0xFFFFFFFE = BitVec.ofNat 32 (v.toNat / 2 * 2) := by
  have hshift : v >>> 1 <<< 1 = v &&& 0xFFFFFFFE := BitVec.shiftLeft_ushiftRight
  apply BitVec.eq_of_toNat_eq
  rw [← hshift, BitVec.toNat_shiftLeft, BitVec.toNat_ushiftRight, Nat.shiftLeft_eq, Nat.shiftRight_eq_div_pow,
    BitVec.toNat_ofNat]

/-- The return and its frame: BPC and the backup bits keep their values (R226). -/
theorem State.returnFromEit_leaves (s : State) :
    Leaves s s.returnFromEit (BitVec.ofNat 32 (s.bpc.toNat / 2 * 2)) (psw := s.psw.returnFromEit) := by
  apply Leaves.withoutStore
  case hpc => exact and_evenMask_eq_ofNat s.bpc
  case hregs => exact s.readStore_returnFromEit
  all_goals rfl

end Sys2Proof.Machine
end

section
/-!
The statements of the family of 45_bit_eit.md.
-/

namespace Sys2Proof.Machine

/-- Settles O15: TRAP is the entry sequence with the fall-through address, and asks nothing of the mode. -/
theorem trapEntersItsHandler : Obligations.trap_enters_its_handler := by
  unfold Obligations.trap_enters_its_handler
  intro s n
  refine ⟨⟨_, rfl, ?_⟩, encodedAs_of_encode rfl rfl, rfl⟩
  rw [← s.fallThrough_eq_ite]
  exact s.eitEntry_entered (.trap n) (s.fallThrough 2)

/-- Settles O16: RTE is the return in supervisor mode, and PIE in user mode. -/
theorem rteReturnsFromEit : Obligations.rte_returns_from_eit := by
  unfold Obligations.rte_returns_from_eit
  intro s
  exact ⟨fun hp => ⟨_, privileged_supervisor hp _, s.returnFromEit_leaves⟩, raises_pie_of_privileged rfl,
    encodedAs_of_encode rfl rfl, rfl⟩

/-- Settles O37: each is a guarded store of the byte read, with the named bit set or cleared by a mask. -/
theorem bitSetAndClear : Obligations.bit_set_and_clear := by
  unfold Obligations.bit_set_and_clear
  intro s k b q hs
  exact ⟨fun ha =>
      ⟨⟨_, (stores_of_changeByte rfl hs).1 ha, fun j _ => or_bitOfByte_getMsbD _ k j⟩,
        ⟨_, (stores_of_changeByte rfl hs).1 ha, fun _ => and_not_bitOfByte_getMsbD _ k⟩⟩,
    encodedAs_of_encode rfl (congrArg Code.word (append_bitpos_disp k _ _ b q).symm),
    encodedAs_of_encode rfl (congrArg Code.word (append_bitpos_disp k _ _ b q).symm)⟩

/-- Settles O38: in supervisor mode each writes PSW as `Psw.set` or `Psw.clear` has it, unless SETPSW is refused. -/
theorem pswSetAndClear : Obligations.psw_set_and_clear := by
  unfold Obligations.psw_set_and_clear
  intro s m
  exact ⟨fun hp =>
      ⟨fun h => completesPsw_of_privileged (execSetpsw_supported h s) hp (s.psw.set_eq m),
        fun h => (execSetpsw_unsupported h s).trans (privileged_supervisor hp _),
        completesPsw_of_privileged rfl hp (s.psw.clear_eq m)⟩,
    fun hp => ⟨raises_pie_of_privileged rfl hp, raises_pie_of_privileged rfl hp⟩,
    encodedAs_of_encode rfl rfl, rfl, encodedAs_of_encode rfl rfl, rfl⟩

end Sys2Proof.Machine
end

section
/-!
SUPPORT. The numbers of the DSP function instructions: the halves of a word and the fields of an accumulator as signed
numbers (R230, R243 to R245), the halves of an accumulator put together (R246, R247), rounding as a division (R248,
R249), saturation (R251, R252), the encodings that name an accumulator (R64, R70) and their reserved neighbours (R71).
-/

namespace Sys2Proof.Machine

variable {i : Instr} {s : State} {a : Acc}

/-! ## Fields of a signed number (R230 (c), R243 to R245) -/

/-- A multiple of 2^n more or less makes no difference to `n` bits. -/
theorem ofInt_sub_two_pow_mul (n : Nat) (m c : Int) : BitVec.ofInt n (m - 2 ^ n * c) = BitVec.ofInt n m := by
  apply BitVec.eq_of_toNat_eq
  rw [BitVec.toNat_ofInt, BitVec.toNat_ofInt, Nat.cast_pow, Nat.cast_ofNat, Int.sub_mul_emod_self_left]

/-- Bits `k` to `k + n - 1` are the signed number divided by 2^k, rounded down, modulo 2^n: the sign's weight is a
multiple of 2^(k + n). -/
theorem extractLsb'_eq_ofInt {w k n : Nat} (hkn : k + n ≤ w) (x : BitVec w) :
    x.extractLsb' k n = BitVec.ofInt n (x.toInt / 2 ^ k) := by
  have hnat : x.extractLsb' k n = BitVec.ofInt n ((x.toNat : Int) / 2 ^ k) := by
    rw [BitVec.extractLsb', Nat.shiftRight_eq_div_pow, ← BitVec.ofInt_natCast]
    push_cast
    rfl
  have hsign : (2 : Int) ^ w = 2 ^ n * 2 ^ (w - (k + n)) * 2 ^ k := by
    rw [← pow_add, ← pow_add]
    congr 1
    omega
  rw [hnat, BitVec.toInt_eq_toNat_cond]
  split
  case isTrue => rfl
  case isFalse =>
    rw [Nat.cast_pow, Nat.cast_ofNat, hsign, Int.sub_mul_ediv_right _ _ (by positivity), ofInt_sub_two_pow_mul]

theorem hiHalf_toInt (v : Word) : (hiHalf v).toInt = hiInt v := by
  have hlow := v.le_toInt
  have hhigh := v.toInt_lt
  rw [hiHalf, extractLsb'_eq_ofInt (by decide), hiInt]
  exact BitVec.toInt_ofInt_eq_self (by decide) (by omega) (by omega)

theorem loHalf_toInt (v : Word) : (loHalf v).toInt = loInt v :=
  signedHalf_eq_signedReading v

/-- MVFACHI, MVFACLO and MVFACMI: a field of the 64-bit view (R243 to R245). -/
theorem completesReg_of_accField {d : Reg} {k : Nat} (hk : k + 32 ≤ 64)
    (h : exec i s = .next (s.result d ((s.readAcc a).extractLsb' k 32) 2)) :
    CompletesReg i s d (BitVec.ofInt 32 (s.accInt a / 2 ^ k)) 2 := by
  rw [State.accInt, ← s.readAcc_toInt, ← extractLsb'_eq_ofInt hk]
  exact completesReg_of_result h

/-! ## Results in one accumulator -/

/-- Only the low 56 bits of the value count (R29). -/
theorem completesAcc_of_resultAcc {v v' : BitVec 64} (h : exec i s = .next (s.resultAcc a v 2))
    (hv : v.setWidth 56 = v'.setWidth 56) : CompletesAcc i s a v' := by
  refine ⟨_, h, ?_⟩
  rw [← hv]
  exact s.resultAcc_leaves a v 2

/-- The multiplications (R238). -/
theorem completesAcc_of_setAccTo {n : Int} (h : exec i s = setAccTo a n s) : CompletesAcc i s a (BitVec.ofInt 64 n) :=
  completesAcc_of_resultAcc h rfl

/-- The multiplications with a sum (R231). -/
theorem completesAcc_of_addToAcc {n : Int} (h : exec i s = addToAcc a n s) :
    CompletesAcc i s a (BitVec.ofInt 64 (s.accInt a + n)) := by
  rw [State.accInt, ← s.readAcc_toInt]
  exact completesAcc_of_setAccTo h

/-! ## The halves of an accumulator (R246, R247) -/

/-- The low 56 bits of the 64-bit view are the stored ones (R29). -/
theorem State.readAcc_toNat_mod (s : State) (a : Acc) : (s.readAcc a).toNat % 2 ^ 56 = (s.accBits a).toNat := by
  rw [← extract_low_toNat, extractLsb'_eq_ofInt (by decide), s.readAcc_toInt, pow_zero, Int.ediv_one,
    BitVec.ofInt_toInt]

theorem append_eq_ofNat (x y : Word) : x ++ y = BitVec.ofNat 64 (x.toNat * 4294967296 + y.toNat) := by
  have hx := x.isLt
  have hy := y.isLt
  apply BitVec.eq_of_toNat_eq
  rw [BitVec.toNat_append, ← Nat.shiftLeft_add_eq_or_of_lt hy, Nat.shiftLeft_eq, BitVec.toNat_ofNat]
  omega

theorem mvtachi_completes (s : State) (r : Reg) (a : Acc) :
    CompletesAcc (.mvtachi r a) s a
      (BitVec.ofNat 64 ((s.getReg r).toNat * 4294967296 + (s.accBits a).toNat % 4294967296)) := by
  have hlow : ((s.readAcc a).extractLsb' 0 32).toNat = (s.accBits a).toNat % 4294967296 := by
    rw [extract_low_toNat, ← s.readAcc_toNat_mod]
    omega
  rw [← hlow, ← append_eq_ofNat]
  exact completesAcc_of_resultAcc rfl rfl

/-- The upper 8 bits of the 64-bit view are lost on the way back (R247). -/
theorem mvtaclo_completes (s : State) (r : Reg) (a : Acc) :
    CompletesAcc (.mvtaclo r a) s a
      (BitVec.ofNat 64 ((s.accBits a).toNat / 4294967296 * 4294967296 + (s.getReg r).toNat)) := by
  refine completesAcc_of_resultAcc (v := (s.readAcc a).extractLsb' 32 32 ++ s.getReg r) rfl ?_
  have hacc := s.readAcc_toNat_mod a
  have hword := (s.getReg r).isLt
  apply BitVec.eq_of_toNat_eq
  rw [append_eq_ofNat, BitVec.extractLsb'_toNat, Nat.shiftRight_eq_div_pow]
  simp only [BitVec.toNat_setWidth, BitVec.toNat_ofNat]
  omega

/-- SADD (R250). -/
theorem sadd_completes (s : State) :
    CompletesAcc .sadd s .a0 (BitVec.ofInt 64 (s.accInt .a0 + s.accInt .a1 / 65536)) := by
  refine completesAcc_of_resultAcc (v := s.readAcc .a0 + (s.readAcc .a1).sshiftRight 16) rfl ?_
  rw [BitVec.ofInt_add, State.accInt, State.accInt, ← s.readAcc_toInt, ← s.readAcc_toInt, BitVec.ofInt_toInt,
    BitVec.sshiftRight, Int.shiftRight_eq_div_pow]
  rfl

/-! ## Rounding (R248, R249) -/

/-- Clearing the low `k` bits rounds down to a multiple of 2^k. -/
theorem ofInt_and_highMask {w k : Nat} (hk : k ≤ w) (t : Int) :
    BitVec.ofInt w t &&& (BitVec.allOnes w <<< k) = BitVec.ofInt w (t / 2 ^ k * 2 ^ k) := by
  have hnat : BitVec.ofInt w t &&& (BitVec.allOnes w <<< k) =
      BitVec.ofInt w ((BitVec.ofInt w t).toNat / 2 ^ k * 2 ^ k : Nat) := by
    apply BitVec.eq_of_toNat_eq
    rw [← BitVec.shiftLeft_ushiftRight, BitVec.toNat_shiftLeft, BitVec.toNat_ushiftRight, Nat.shiftLeft_eq,
      Nat.shiftRight_eq_div_pow, BitVec.ofInt_natCast, BitVec.toNat_ofNat]
  have hpow : (2 : Int) ^ w = 2 ^ (w - k) * 2 ^ k := by
    rw [← pow_add, Nat.sub_add_cancel hk]
  have hmod : ((BitVec.ofInt w t).toNat : Int) = t - 2 ^ w * (t / 2 ^ w) := by
    rw [BitVec.toNat_ofInt, Nat.cast_pow, Nat.cast_ofNat, Int.toNat_of_nonneg (Int.emod_nonneg _ (by positivity)),
      Int.emod_def]
  have hround : (t - 2 ^ w * (t / 2 ^ w)) / 2 ^ k * 2 ^ k = t / 2 ^ k * 2 ^ k - 2 ^ w * (t / 2 ^ w) := by
    rw [hpow, mul_right_comm, Int.sub_mul_ediv_right _ _ (by positivity), Int.sub_mul, mul_right_comm]
  push_cast [hmod] at hnat
  rw [hnat, hround, ofInt_sub_two_pow_mul]

/-- RAC and RACH: the limits first, then the rounding. -/
theorem completesAcc_of_roundedAcc {k : Nat} {t top : Int} (hk : k ≤ 64)
    (h : exec i s = .next (s.resultAcc a (roundedAcc t top (BitVec.allOnes 64 <<< k)) 2)) :
    CompletesAcc i s a (BitVec.ofInt 64
      (if top < t then top else if t < -140737488355328 then -140737488355328 else t / 2 ^ k * 2 ^ k)) := by
  rw [apply_ite (BitVec.ofInt 64), apply_ite (BitVec.ofInt 64), ← ofInt_and_highMask hk]
  exact completesAcc_of_resultAcc h rfl

/-! ## Saturation (R251, R252) -/

theorem max_min_eq_ite {lo hi : Int} (h : lo ≤ hi) (n : Int) :
    max lo (min hi n) = if hi ≤ n then hi else if n ≤ lo then lo else n := by
  split
  · omega
  · split <;> omega

/-- SATB and SATH: the limits are tested in turn. -/
theorem completesReg_of_limited {d : Reg} {v : Word} {lo hi : Int} (hle : lo ≤ hi)
    (h : exec i s = .next (s.result d
      (if hi ≤ v.toInt then BitVec.ofInt 32 hi else if v.toInt ≤ lo then BitVec.ofInt 32 lo else v) 4)) :
    CompletesReg i s d (BitVec.ofInt 32 (max lo (min hi v.toInt))) 4 := by
  rw [max_min_eq_ite hle, apply_ite (BitVec.ofInt 32), apply_ite (BitVec.ofInt 32), BitVec.ofInt_toInt]
  exact completesReg_of_result h

/-! ## Encodings (R64, R70) -/

/-- The printed halfword `oooo ssss appp tttt` is the packed one (R64). -/
theorem append_accBit (a : Acc) (k : BitVec 3) (b c d : BitVec 4) :
    (b ++ c ++ accBit a ++ k ++ d : BitVec (4 + 4 + 1 + 3 + 4)) = pack16 b c (accOp2 a k) d := by
  cases a <;> exact congrArg (· ++ d) BitVec.append_assoc

/-- The printed halfword `oooo rrrr pppp aakk` is the packed one (R64). -/
theorem append_twoBits (f k : BitVec 2) (b c d : BitVec 4) :
    (b ++ c ++ d ++ f ++ k : BitVec (4 + 4 + 4 + 2 + 2)) = pack16 b c d (f ++ k) :=
  BitVec.append_assoc

theorem append_accField (a : Acc) (k : BitVec 2) (b c d : BitVec 4) :
    (b ++ c ++ d ++ accField a ++ k : BitVec (4 + 4 + 4 + 2 + 2)) = pack16 b c d (accR2 a k) := by
  cases a <;> exact append_twoBits _ k b c d

/-- The printed halfword `oooo dd00 pppp aa0i` of RAC and RACH is the packed one (R70). -/
theorem append_round {n : Nat} (hn : n = 1 ∨ n = 2) (d a : Acc) (b c : BitVec 4) :
    (b ++ accField d ++ 0b00#2 ++ c ++ accField a ++ 0b0#1 ++ BitVec.ofNat 1 (n - 1) :
      BitVec (4 + 2 + 2 + 4 + 2 + 1 + 1)) = pack16 b (accR2 d 0) c (accR2 a (roundCode n)) := by
  revert b c
  obtain rfl | rfl := hn <;> cases d <;> cases a <;> decide

/-! ## Reserved neighbours (R71) -/

/-- A halfword like MVFAC's with another field R2 is reserved (R243 to R245). -/
theorem decode16_mvfac_reserved {k : BitVec 4} (hk : k.toNat = 3 ∨ 7 ≤ k.toNat) (r : Reg) :
    decode16 (pack16 5 r 15 k) = none := by
  simp only [decode16, opField_pack16, decode5, op2Field_pack16, r2Field_pack16, BitVec.reduceToNat]
  split
  case h_7 => rfl
  all_goals omega

/-- A halfword like MVTAC's with another field R2 is reserved (R246, R247). -/
theorem decode16_mvtac_reserved {k : BitVec 4} (hk : k.toNat = 2 ∨ k.toNat = 3 ∨ 6 ≤ k.toNat) (r : Reg) :
    decode16 (pack16 5 r 7 k) = none := by
  simp only [decode16, opField_pack16, decode5, op2Field_pack16, r2Field_pack16, BitVec.reduceToNat]
  split
  case h_5 => rfl
  all_goals omega

/-- Sub-opcode 11 of MVFAC is reserved, whatever the selector (R243 to R245). -/
theorem decode16_mvfac_subopcode_reserved (r : Reg) (f : BitVec 2) :
    decode16 (0b0101#4 ++ r ++ 0b1111#4 ++ f ++ 0b11#2) = none := by
  have hfield : (f ++ 3#2 : BitVec 4).toNat = 3 ∨ 7 ≤ (f ++ 3#2 : BitVec 4).toNat := by revert f; decide
  rw [append_twoBits]
  exact decode16_mvfac_reserved hfield r

/-- Sub-opcodes 10 and 11 of MVTAC are reserved, whatever the selector (R246, R247). -/
theorem decode16_mvtac_subopcode_reserved {k : BitVec 2} (hk : 2 ≤ k.toNat) (r : Reg) (f : BitVec 2) :
    decode16 (0b0101#4 ++ r ++ 0b0111#4 ++ f ++ k) = none := by
  have hfield : (f ++ k : BitVec 4).toNat = 2 ∨ (f ++ k : BitVec 4).toNat = 3 ∨ 6 ≤ (f ++ k : BitVec 4).toNat := by
    revert f k; decide
  rw [append_twoBits]
  exact decode16_mvtac_reserved hfield r

/-- Selectors 10 and 11 of MVTAC are reserved, whatever the sub-opcode (R64, R230). -/
theorem decode16_mvtac_selector_reserved {k : BitVec 2} (hk : 2 ≤ k.toNat) (r : Reg) (f : BitVec 2) :
    decode16 (0b0101#4 ++ r ++ 0b0111#4 ++ k ++ f) = none := by
  have hfield : 6 ≤ (k ++ f : BitVec 4).toNat := by revert f k; decide
  rw [append_twoBits]
  exact decode16_mvtac_reserved (.inr (.inr hfield)) r

/-- A word like SATB's with another lower halfword is reserved (R251, R252). -/
theorem decode32_sat_reserved {h : Half} (hb : h ≠ 0x0300) (hh : h ≠ 0x0200) (d r : Reg) :
    decode32 (pack32 8 d 6 r h) = none := by
  simp only [decode32, upperHalf_pack32, opField_pack16, decode8, op2Field_pack16, lowerHalf_pack32, BitVec.reduceToNat]
  split
  case h_1 hc => exact absurd (BitVec.eq_of_toNat_eq hc) hb
  case h_2 hc => exact absurd (BitVec.eq_of_toNat_eq hc) hh
  case h_3 => rfl

end Sys2Proof.Machine
end

section
/-!
The statements of the family of 46_dsp.md.
-/

namespace Sys2Proof.Machine

/-- Settles O44: each is one `addToAcc`, of the exact product of the halves, or of its negative. -/
theorem multiplyAccumulate : Obligations.multiply_accumulate := by
  unfold Obligations.multiply_accumulate
  intro s x y a
  rw [← hiHalf_toInt, ← hiHalf_toInt, ← loHalf_toInt, ← loHalf_toInt]
  exact ⟨completesAcc_of_addToAcc rfl, encodedAs_of_encode rfl (congrArg Code.half (append_accBit a _ _ x y).symm),
    completesAcc_of_addToAcc rfl, encodedAs_of_encode rfl rfl,
    completesAcc_of_addToAcc rfl, encodedAs_of_encode rfl (congrArg Code.half (append_accBit a _ _ x y).symm),
    completesAcc_of_addToAcc rfl, encodedAs_of_encode rfl rfl,
    completesAcc_of_addToAcc rfl, encodedAs_of_encode rfl rfl,
    completesAcc_of_addToAcc rfl, encodedAs_of_encode rfl rfl,
    completesAcc_of_addToAcc rfl, encodedAs_of_encode rfl rfl⟩

/-- Settles O45: each is one `setAccTo`, of the exact product of the halves. -/
theorem multiplyIntoAccumulator : Obligations.multiply_into_accumulator := by
  unfold Obligations.multiply_into_accumulator
  intro s x y a
  rw [← hiHalf_toInt, ← hiHalf_toInt, ← loHalf_toInt, ← loHalf_toInt]
  exact ⟨completesAcc_of_setAccTo rfl, encodedAs_of_encode rfl (congrArg Code.half (append_accBit a _ _ x y).symm),
    completesAcc_of_setAccTo rfl, encodedAs_of_encode rfl (congrArg Code.half (append_accBit a _ _ x y).symm),
    completesAcc_of_setAccTo rfl, encodedAs_of_encode rfl rfl,
    completesAcc_of_setAccTo rfl, encodedAs_of_encode rfl rfl,
    completesAcc_of_setAccTo rfl, encodedAs_of_encode rfl rfl⟩

/-- Settles O46: a field of the 64-bit view is a quotient of the signed number, and no other field R2 is listed. -/
theorem accumulatorTransfersAndSum : Obligations.accumulator_transfers_and_sum := by
  unfold Obligations.accumulator_transfers_and_sum
  intro s r a f
  have hlow : CompletesReg (.mvfaclo r a) s r (BitVec.ofInt 32 (s.accInt a)) 2 := by
    rw [← Int.ediv_one (s.accInt a)]
    exact completesReg_of_accField (k := 0) (by decide) rfl
  exact ⟨completesReg_of_accField (k := 32) (by decide) rfl,
      encodedAs_of_encode rfl (congrArg Code.half (append_accField a _ _ r _).symm),
    hlow, encodedAs_of_encode rfl (congrArg Code.half (append_accField a _ _ r _).symm),
    completesReg_of_accField (k := 16) (by decide) rfl,
      encodedAs_of_encode rfl (congrArg Code.half (append_accField a _ _ r _).symm),
    mvtachi_completes s r a, encodedAs_of_encode rfl (congrArg Code.half (append_accField a _ _ r _).symm),
    mvtaclo_completes s r a, encodedAs_of_encode rfl (congrArg Code.half (append_accField a _ _ r _).symm),
    decode16_mvfac_subopcode_reserved r f,
    decode16_mvtac_subopcode_reserved (by decide) r f, decode16_mvtac_subopcode_reserved (by decide) r f,
    decode16_mvtac_selector_reserved (by decide) r f, decode16_mvtac_selector_reserved (by decide) r f,
    sadd_completes s, encodedAs_of_encode rfl rfl⟩

/-- Settles O47: each is one `roundedAcc`, which clears 16 or 32 bits where no limit applies. -/
theorem rounding : Obligations.rounding := by
  unfold Obligations.rounding
  intro s d a n hn
  have hacc : s.accInt a = (s.readAcc a).toInt := (s.readAcc_toInt a).symm
  rw [hacc]
  have hok : Instr.roundShiftOk n = true := by rwa [Instr.roundShiftOk, Bool.or_eq_true, beq_iff_eq, beq_iff_eq]
  exact ⟨completesAcc_of_roundedAcc (k := 16) (by decide) rfl, completesAcc_of_roundedAcc (k := 32) (by decide) rfl,
    encodedAs_of_encode hok (congrArg Code.half (append_round hn d a _ _).symm),
    encodedAs_of_encode hok (congrArg Code.half (append_round hn d a _ _).symm)⟩

/-- Settles O48: the limits are tested in turn, and the decoder compares the whole second halfword. -/
theorem saturation : Obligations.saturation := by
  unfold Obligations.saturation
  intro s d r h
  exact ⟨completesReg_of_limited (by decide) rfl, encodedAs_of_encode rfl rfl,
    completesReg_of_limited (by decide) rfl, encodedAs_of_encode rfl rfl,
    fun hb hh => decode32_sat_reserved hb hh d r⟩

end Sys2Proof.Machine
end

section
/-!
SUPPORT. The coprocessor support instructions as one command each (R261 to R263), what they leave when the coprocessor
carries the command out, and the exception when it does not (R260, R276).
-/

namespace Sys2Proof.Machine

variable {i : Instr} {s : State} {c : BitVec 4} {cp : Coproc} {cmd : CoprocCommand} {len : Word}

/-! ## Each instruction is one command -/

theorem exec_mvtcp (r : Reg) (x c : BitVec 4) (m : BitVec 8) (s : State) :
    exec (.mvtcp r x c m) s = withCoproc c (.write x m (s.getReg r)) s (fun _ t => t.advance 4) := rfl

theorem exec_mvfcp (r : Reg) (x c : BitVec 4) (m : BitVec 8) (s : State) :
    exec (.mvfcp r x c m) s = withCoproc c (.read x m) s (fun v t => t.result r v 4) := rfl

theorem exec_opecp (r x c : BitVec 4) (m : BitVec 8) (s : State) :
    exec (.opecp r x c m) s = withCoproc c (.operate r x m) s (fun _ t => t.advance 4) := rfl

/-! ## What a command leaves -/

/-- The coprocessor changes and the instruction moves on. -/
theorem State.setCoproc_advance_leaves (s : State) (c : BitVec 4) (cp : Coproc) (len : Word) :
    Leaves s ((s.setCoproc c cp).advance len) (s.fallThrough len)
      (coproc := s.coproc.set c.toNat (some cp) c.isLt) := by
  apply Leaves.withoutStore
  case hregs => exact fun p => (State.readStore_advance _ len p).trans (s.readStore_setCoproc c cp p)
  all_goals rfl

/-- The coprocessor changes and a result goes to one register cell. -/
theorem State.setCoproc_result_leaves (s : State) (c : BitVec 4) (cp : Coproc) (d : Reg) (v len : Word) :
    Leaves s ((s.setCoproc c cp).result d v len) (s.fallThrough len) (regs := [(s.physReg d, v)])
      (coproc := s.coproc.set c.toNat (some cp) c.isLt) := by
  apply Leaves.withoutStore <;>
    simp [State.result, State.readStore_setReg, lookup_single, State.fallThrough_congr (s := s)]

/-- A command whose answer no register takes (R261, R263). -/
theorem leaves_of_coprocCommand (h : exec i s = withCoproc c cmd s (fun _ t => t.advance len))
    (hcp : s.coprocAt c = some cp) (hc : cmd ∉ cp.answersCDE) :
    ∃ t, exec i s = .next t ∧ Leaves s t (s.fallThrough len)
      (coproc := s.coproc.set c.toNat (some (Config.coprocNext c cp cmd)) c.isLt) :=
  ⟨_, h.trans (withCoproc_done hcp hc _), s.setCoproc_advance_leaves c _ len⟩

/-- A command whose answer goes to the register `d` (R262). -/
theorem leaves_of_coprocAnswer {d : Reg} (h : exec i s = withCoproc c cmd s (fun v t => t.result d v len))
    (hcp : s.coprocAt c = some cp) (hc : cmd ∉ cp.answersCDE) :
    ∃ t, exec i s = .next t ∧
      Leaves s t (s.fallThrough len) (regs := [(s.physReg d, Config.coprocValue c cp cmd)])
        (coproc := s.coproc.set c.toNat (some (Config.coprocNext c cp cmd)) c.isLt) :=
  ⟨_, h.trans (withCoproc_done hcp hc _), s.setCoproc_result_leaves c _ d _ len⟩

/-- A command answered with the coprocessor disable exception, whatever its effect would be (R260, R276). -/
theorem raises_cde_of_coprocCommand {e : Word → State → State} (h : exec i s = withCoproc c cmd s e)
    (hcp : s.coprocAt c = some cp) (hc : cmd ∈ cp.answersCDE) : Raises i s .cde :=
  raises_of (h.trans (withCoproc_disabled hcp hc e))

end Sys2Proof.Machine
end

section
/-!
The statement of the family of 47_coprocessor.md.
-/

namespace Sys2Proof.Machine

/-- Settles O49: each is one command, which the coprocessor carries out or answers with CDE, or finds no coprocessor. -/
theorem coprocessorInstructions : Obligations.coprocessor_instructions := by
  unfold Obligations.coprocessor_instructions
  intro s r x k m
  have hw := exec_mvtcp r x k m s
  have hr := exec_mvfcp r x k m s
  have ho := exec_opecp r x k m s
  refine ⟨fun cp hcp => ?present, fun hnone => ?absent, ?encodings⟩
  case present =>
    exact ⟨leaves_of_coprocCommand hw hcp, raises_cde_of_coprocCommand hw hcp,
      leaves_of_coprocAnswer hr hcp, raises_cde_of_coprocCommand hr hcp,
      leaves_of_coprocCommand ho hcp, raises_cde_of_coprocCommand ho hcp⟩
  case absent =>
    exact ⟨hw.trans (withCoproc_absent hnone _ _), hr.trans (withCoproc_absent hnone _ _),
      ho.trans (withCoproc_absent hnone _ _)⟩
  case encodings =>
    exact ⟨encodedAs_of_encode rfl rfl, encodedAs_of_encode rfl rfl, encodedAs_of_encode rfl rfl⟩

end Sys2Proof.Machine
end

section
/-!
SUPPORT. User mode: the control state that no instruction, pair or interrupt changes but by an EIT entry (R286).
-/

namespace Sys2Proof.Machine

variable {i a b : Instr} {s t u : State}

/-! ## The stack pointer that SM does not select (R12, R16) -/

/-- The cell of the stack pointer that R15 does not name. -/
def State.hiddenStack (s : State) : Store := if s.psw.sm then .spi else .spu

theorem State.physReg_ne_hiddenStack (s : State) (n : Reg) : s.physReg n ≠ s.hiddenStack := by
  by_cases hn : n = 15
  · subst hn
    rw [State.physReg_fifteen, State.hiddenStack]
    cases s.psw.sm <;> exact Store.noConfusion
  · obtain ⟨m, hm⟩ := s.physReg_ne_fifteen hn
    rw [hm, State.hiddenStack]
    cases s.psw.sm <;> exact Store.noConfusion

/-- Of all instructions, only MVTC names a stack pointer by another number than R15 (R124). -/
theorem State.hiddenStack_not_written (s : State) (hi : ∀ cr r, i ≠ .mvtc cr r) :
    s.hiddenStack ∉ writtenRegs i s := by
  have hne (n : Reg) : s.hiddenStack ≠ s.physReg n := (s.physReg_ne_hiddenStack n).symm
  cases i with
  | mvtc cr r => exact absurd rfl (hi cr r)
  | bcl8 | bncl8 | bcl24 | bncl24 => cases hc : s.psw.c <;> simp [writtenRegs, hne, hc]
  | _ => simp [writtenRegs, hne]

/-! ## What user mode keeps -/

/-- From `s` to `t`, EVB, EVB_WRITTEN and the hidden stack pointer are unchanged; and PSW but for C, and BPC, are
unchanged too, or an EIT is entered from user mode. -/
structure Isolated (s t : State) : Prop where
  evb : t.evb = s.evb
  evbWritten : t.evbWritten = s.evbWritten
  hidden : t.readStore s.hiddenStack = s.readStore s.hiddenStack
  control : ({ t.psw with c := s.psw.c } = s.psw ∧ t.bpc = s.bpc) ∨
    (t.psw.pm = false ∧ t.psw.bpm = true ∧ ∃ k, t.pc = s.eitVector k)

/-- An EIT entry from user mode (R278). -/
theorem State.eitEntry_isolated (hp : s.psw.pm = true) (k : Eit) (bpc : Word) : Isolated s (s.eitEntry k bpc) where
  evb := rfl
  evbWritten := rfl
  hidden := s.readStore_eitEntry k bpc _
  control := .inr ⟨rfl, hp, k, rfl⟩

/-- The issue mode is no control state. -/
theorem Isolated.withIssue (h : Isolated s t) (m : Issue) : Isolated s { t with issue := m } :=
  { h with hidden := (State.readStore_congr rfl rfl rfl _).trans h.hidden }

/-- In user mode no instruction writes EVB, BPC or a bit of PSW but C (R273). -/
theorem MayWrite.control_eq (h : MayWrite i s u) (hp : s.psw.pm = true) :
    u.evb = s.evb ∧ u.evbWritten = s.evbWritten ∧ { u.psw with c := s.psw.c } = s.psw ∧ u.bpc = s.bpc := by
  induction h with
  | start => exact ⟨rfl, rfl, rfl, rfl⟩
  | reg | acc => simpa
  | psw _ _ hs | evb _ _ hs | bpc _ _ hs => exact absurd (hs.symm.trans hp) Bool.noConfusion
  | cond _ _ _ ih | byte _ _ _ _ _ _ _ _ ih | lock _ _ ih | coproc _ _ _ ih | draw _ _ ih => exact ih

theorem MayEnd.isolated (h : MayEnd i s t) (hp : s.psw.pm = true) (hi : ∀ cr r, i ≠ .mvtc cr r) : Isolated s t := by
  cases h with
  | completes hw =>
    obtain ⟨hevb, hwritten, hpsw, hbpc⟩ := hw.control_eq hp
    have hhidden := hw.readStore_eq (s.hiddenStack_not_written hi)
    exact ⟨hevb, hwritten, (State.readStore_goto ..).trans hhidden, .inl ⟨hpsw, hbpc⟩⟩
  | cancels => exact ⟨rfl, rfl, State.readStore_congr rfl rfl rfl _, .inl ⟨rfl, rfl⟩⟩
  | raises k => exact (State.eitEntry_isolated hp k s.pc).withIssue _
  | traps n => exact State.eitEntry_isolated hp (.trap n) _

/-- MVTC, which could write a stack pointer, raises PIE in user mode. -/
theorem exec_isolated (hp : s.psw.pm = true) (h : exec i s = .next t) : Isolated s t := by
  by_cases hi : ∀ cr r, i ≠ .mvtc cr r
  · exact (exec_mayEnd h).isolated hp hi
  · push Not at hi
    obtain ⟨cr, r, rfl⟩ := hi
    obtain ⟨hsup, -⟩ | rfl := privileged_next h
    · exact absurd (hsup.symm.trans hp) Bool.noConfusion
    · exact (State.eitEntry_isolated hp .pie s.pc).withIssue _

theorem raise_isolated {k : Eit} (hp : s.psw.pm = true) (h : raise k s = .next t) : Isolated s t := by
  cases h
  exact (State.eitEntry_isolated hp k s.pc).withIssue _

/-- What the lower member of a pair adds to A's state is no control state: MVTC is no lower member (R74). -/
theorem mergePair_isolated {ta tb : State} (hab : pairAllowed a b = true) (h : Isolated s ta) :
    Isolated s (mergePair a b s ta tb) := by
  obtain ⟨hpc, -, -, -, hevb, hw, hbpc, -, -, hpsw⟩ := mergePair_frame a b s ta tb
  have hb (cr : BitVec 4) (r : Reg) : b ≠ .mvtc cr r := by
    rintro rfl
    obtain hcat | hcat := category_of_pairAllowed hab <;> cases hcat
  have hpm : (mergePair a b s ta tb).psw.pm = ta.psw.pm := (congrArg Psw.pm hpsw :)
  have hbpm : (mergePair a b s ta tb).psw.bpm = ta.psw.bpm := (congrArg Psw.bpm hpsw :)
  have hkept : { (mergePair a b s ta tb).psw with c := s.psw.c } = { ta.psw with c := s.psw.c } :=
    congrArg (fun p : Psw => { p with c := s.psw.c }) hpsw
  refine ⟨hevb.trans h.evb, hw.trans h.evbWritten, ?_, ?_⟩
  · exact (readStore_mergePair_out (s.hiddenStack_not_written hb) ta tb).trans h.hidden
  · rw [hpm, hbpm, hpc, hbpc, hkept]
    exact h.control

theorem runPair_isolated (hab : pairAllowed a b = true) (hp : s.psw.pm = true) (h : runPair a b s = .next t) :
    Isolated s t := by
  obtain ⟨ta, ha, hcase⟩ := runPair_next h
  have hta : Isolated { s with issue := .paired } ta := exec_isolated hp ha
  have hta : Isolated s ta := { hta with hidden := hta.hidden.trans (State.readStore_congr rfl rfl rfl _) }
  obtain ⟨-, rfl⟩ | ⟨-, -, tb, -, rfl⟩ := hcase
  · exact hta.withIssue _
  · exact (mergePair_isolated hab hta).withIssue _

theorem execDecoded_isolated {o : Option Instr} (hp : s.psw.pm = true) (h : execDecoded o s = .next t) :
    Isolated s t := by
  cases o
  · exact raise_isolated hp h
  · exact exec_isolated hp h

theorem execPair_isolated {ha hb : Half} (hp : s.psw.pm = true) (h : execPair ha hb s = .next t) : Isolated s t := by
  unfold execPair at h
  split at h
  · split at h
    next hab => exact runPair_isolated hab hp h
    next => cases h
  · exact raise_isolated hp h

theorem execNext_isolated (hp : s.psw.pm = true) (h : execNext s = .next t) : Isolated s t := by
  unfold execNext at h
  split at h
  next p _ =>
    cases p
    · exact execDecoded_isolated hp h
    · exact execDecoded_isolated hp h
    · exact execPair_isolated hp h
  next => cases h

/-- A step keeps user mode's control state, whatever it runs, or enters an EIT. -/
theorem step_isolated (hp : s.psw.pm = true) (hr : s.offer.reset = false) (h : step s = .next t) :
    Isolated s.passBoundary t := by
  obtain ⟨hreset, -⟩ | ⟨-, k, -, hstep⟩ | ⟨-, hstep⟩ := step_cases s
  · exact absurd (hr.symm.trans hreset) Bool.noConfusion
  · obtain rfl : s.passBoundary.eitEntry k s.pc = t := by simpa [hstep] using h
    exact State.eitEntry_isolated (s := s.passBoundary) hp k s.pc
  · exact execNext_isolated hp (hstep ▸ h)

end Sys2Proof.Machine
end

section
/-!
SUPPORT. The boundary between two steps (R277), the vector entries (R280), and the accesses that user mode may
not make (R287).
-/

namespace Sys2Proof.Machine

variable {i : Instr} {s : State}

/-! ## The boundary between two steps (R276, R277, R300) -/

/-- A reset that is offered is taken. -/
theorem step_reset (h : s.offer.reset = true) : step s = .next s.passBoundary.resetEvent := by
  obtain ⟨-, hstep⟩ | ⟨hr, -⟩ | ⟨hq, -⟩ := step_cases s
  · exact hstep
  · exact absurd (hr.symm.trans h) Bool.noConfusion
  · exact absurd (hq.1.symm.trans h) Bool.noConfusion

/-- The step that accepts an interrupt is the entry of the interrupt. -/
theorem step_interrupted {k : Eit} (hr : s.offer.reset = false) (hk : s.acceptedInterrupt = some k) :
    ∃ t, step s = .next t ∧ Entered s.passBoundary t k s.pc := by
  obtain ⟨hreset, -⟩ | ⟨-, k', hk', hstep⟩ | ⟨hq, -⟩ := step_cases s
  · exact absurd (hr.symm.trans hreset) Bool.noConfusion
  · obtain rfl : k = k' := Option.some.inj (hk.symm.trans hk')
    exact ⟨_, hstep, s.passBoundary.eitEntry_entered k s.pc⟩
  · cases hk.symm.trans hq.2

/-- A coprocessor interrupt is requested by the environment or by a coprocessor that is present (R276). -/
theorem State.cpiRequested_iff (s : State) :
    s.cpiRequested = true ↔
      s.offer.cpi = true ∨ ∃ k cp, s.coprocAt k = some cp ∧ cp.requestsCPI = true := by
  rw [State.cpiRequested, Bool.or_eq_true, List.any_eq_true]
  refine or_congr_right ⟨?_, ?_⟩
  · rintro ⟨c, hc, hreq⟩
    obtain ⟨k, hk, rfl⟩ := Vector.mem_iff_getElem.1 ((Vector.mem_toArray_iff _ _).1 (Array.mem_toList_iff.1 hc))
    cases hcp : s.coproc[k] with
    | none => simp [hcp] at hreq
    | some cp => exact ⟨BitVec.ofFin ⟨k, hk⟩, cp, hcp, by simpa [hcp] using hreq⟩
  · rintro ⟨k, cp, hcp, hreq⟩
    have hmem : some cp ∈ s.coproc := Vector.mem_iff_getElem.2 ⟨k.toNat, k.isLt, hcp⟩
    exact ⟨some cp, Array.mem_toList_iff.2 ((Vector.mem_toArray_iff _ _).2 hmem), hreq⟩

theorem State.cpiRequested_eq_false (hoffer : s.offer.cpi = false)
    (hquiet : ∀ k cp, s.coprocAt k = some cp → cp.requestsCPI = false) : s.cpiRequested = false := by
  rw [Bool.eq_false_iff, ne_eq, s.cpiRequested_iff]
  rintro (h | ⟨k, cp, hcp, h⟩)
  · exact Bool.noConfusion (h.symm.trans hoffer)
  · exact Bool.noConfusion (h.symm.trans (hquiet k cp hcp))

/-- An external interrupt comes first where IE = 1. -/
theorem State.acceptedInterrupt_ei {n : BitVec 8} (hn : s.offer.ei = some n) (hie : s.psw.ie = true) :
    s.acceptedInterrupt = some (.ei n) := by
  simp only [State.acceptedInterrupt, hn, hie]

/-- Where no external interrupt is accepted, CE decides on the coprocessor interrupt. -/
theorem State.acceptedInterrupt_no_ei (h : s.offer.ei = none ∨ s.psw.ie = false) :
    s.acceptedInterrupt = if s.cpiRequested && s.psw.ce then some .cpi else none := by
  unfold State.acceptedInterrupt
  split
  next n hn hie => simp [hn, hie] at h
  next => rfl

/-! ## Vector entries (R280) -/

/-- The bit of EVB that copies MATM.AT reads 0 (R26, decision D24). -/
theorem State.readEvb_getMsbD_zero (s : State) : s.readEvb.getMsbD 0 = false := by
  simp [State.readEvb, Config.atMode, BitVec.getMsbD_eq_getLsbD]

/-- The upper 16 bits of an entry are EVB's. -/
theorem State.eitVector_getMsbD (s : State) (k : Eit) {j : Nat} (hj : j < 16) :
    (s.eitVector k).getMsbD j = s.readEvb.getMsbD j := by
  have hslot : ¬ 30 ≤ j := by omega
  have hlt : 15 - j < 16 ∧ j < 32 := by omega
  have hpos : 16 + (15 - j) = 31 - j := by omega
  rw [State.eitVector, BitVec.getMsbD_append, if_neg hslot, BitVec.getMsbD_append, if_neg (Nat.not_le.2 hj)]
  simp [BitVec.getMsbD_eq_getLsbD, hj, hlt, hpos]

/-- The EIT whose key is `c` (R280). -/
def Eit.ofCode (c : BitVec 14) : Eit :=
  if c.toNat < 16 then [Eit.ae, .pie, .rie, .cde].getD c.toNat .cpi
  else if c.toNat < 256 then .trap (c.setWidth 4)
  else .ei (c.setWidth 8)

theorem Eit.ofCode_code (k : Eit) : Eit.ofCode k.code = k := by
  cases k with
  | trap n =>
    have hlo : ¬ (16 + n.setWidth 14).toNat < 16 := by bv_omega
    have hhi : (16 + n.setWidth 14).toNat < 256 := by bv_omega
    have hn : (16 + n.setWidth 14).setWidth 4 = n := by bv_omega
    rw [Eit.code, Eit.ofCode, if_neg hlo, if_pos hhi, hn]
  | ei n =>
    have hlo : ¬ (256 + n.setWidth 14).toNat < 16 := by bv_omega
    have hhi : ¬ (256 + n.setWidth 14).toNat < 256 := by bv_omega
    have hn : (256 + n.setWidth 14).setWidth 8 = n := by bv_omega
    rw [Eit.code, Eit.ofCode, if_neg hlo, if_neg hhi, hn]
  | ae | pie | rie | cde | cpi => rfl

/-- Different EITs have different slots, and a slot is a field of its entry. -/
theorem State.eitVector_injective {k k' : Eit} (h : s.eitVector k = s.eitVector k') : k = k' := by
  obtain ⟨hupper, -⟩ := append_left_inj h
  obtain ⟨-, hslot⟩ := append_left_inj hupper
  exact Function.LeftInverse.injective Eit.ofCode_code (Config.vectorSlot.injective hslot)

/-! ## Accesses that user mode may not make (R287) -/

/-- An instruction whose meaning is a guarded access, at an aligned address outside user space. -/
theorem refused_of_denied {ea : Word} {n : Nat} {e : Result} (h : exec i s = withAccess ea n s e)
    (hp : s.psw.pm = true) (hea : 2147483648 ≤ ea.toNat) (ha : ea.toNat % n = 0) :
    exec i s = .refused .userAccessOutsideUserSpace :=
  h.trans (withAccess_denied ha hp hea e)

/-- A byte has no alignment to check first. -/
theorem refused_of_denied_byte {ea : Word} {e : Result} (h : exec i s = withAccess ea 1 s e)
    (hp : s.psw.pm = true) (hea : 2147483648 ≤ ea.toNat) : exec i s = .refused .userAccessOutsideUserSpace :=
  refused_of_denied h hp hea (Nat.mod_one _)

end Sys2Proof.Machine
end

section
/-!
SUPPORT. What the upper member of a pair can raise, and the pair whose upper member raises it or is TRAP (R281).
-/

namespace Sys2Proof.Machine

variable {i a b : Instr} {s t u : State}

/-! ## The issue mode -/

/-- State `t` has the issue mode of `s`, or the one of SC and SNC that cancel, or is the entry of PIE or AE. -/
def KeepsIssueOrRaises (s t : State) : Prop :=
  t.issue = s.issue ∨ t.issue = .cancelsPartner ∨ ∃ k, (k = .pie ∨ k = .ae) ∧ t = (s.eitEntry k s.pc).abortPair

/-- A guarded access keeps the issue mode or raises AE. -/
theorem withAccess_issue {ea : Word} {n : Nat} {e : Result} (h : withAccess ea n s e = .next t)
    (he : e = .next t → t.issue = s.issue) : KeepsIssueOrRaises s t := by
  obtain ⟨-, h⟩ | rfl := withAccess_next h
  · exact .inl (he h)
  · exact .inr (.inr ⟨.ae, .inr rfl, rfl⟩)

theorem loadOrStore_issue {ea : Word} {n : Nat} (h : withAccess ea n s (.next u) = .next t)
    (hu : u.issue = s.issue) : KeepsIssueOrRaises s t :=
  withAccess_issue h fun h => by
    cases h
    exact hu

theorem withUpdate_issue {ea : Word} {n : Nat} {d c : Reg} (h : withAccess ea n s (withUpdate d c u) = .next t)
    (hu : u.issue = s.issue) : KeepsIssueOrRaises s t :=
  withAccess_issue h fun h => by
    obtain ⟨-, rfl⟩ := withUpdate_next.1 h
    exact hu

/-- A privileged instruction keeps the issue mode or raises PIE. -/
theorem privileged_issue {e : Result} (h : privileged s e = .next t)
    (he : s.psw.pm = false → e = .next t → t.issue = s.issue) : KeepsIssueOrRaises s t := by
  obtain ⟨hp, h⟩ | rfl := privileged_next h
  · exact .inl (he hp h)
  · exact .inr (.inr ⟨.pie, .inl rfl, rfl⟩)

theorem branchIf_issue {taken : Bool} {target len : Word} (h : branchIf taken target len s = .next t) :
    t.issue = s.issue := by
  cases taken <;> cases h <;> rfl

theorem branchLinkIf_issue {taken : Bool} {target len : Word} (h : branchLinkIf taken target len s = .next t) :
    t.issue = s.issue := by
  cases taken <;> cases h
  · rfl
  · exact s.setReg_issue 14 (s.wordBase + 4)

theorem skipPartnerIf_issue {cancel : Bool} (h : skipPartnerIf cancel s = .next t) : KeepsIssueOrRaises s t := by
  unfold skipPartnerIf at h
  split at h
  next =>
    cases cancel
    · cases h
      exact .inl rfl
    · cases h
      exact .inr (.inl rfl)
  next =>
    cases h
    exact .inl rfl

theorem execMvfc_issue {d : Reg} {cr : BitVec 4} (h : execMvfc d cr s = .next t) : t.issue = s.issue := by
  unfold execMvfc at h
  split at h
  · cases h
    exact s.setReg_issue d _
  · cases h

theorem execMvtc_issue {cr : BitVec 4} {r : Reg} (h : execMvtc cr r s = .next t) : KeepsIssueOrRaises s t :=
  privileged_issue h fun hp h => by
    split at h
    next hw =>
      cases h
      exact (writeCR_mayWrite (src := r) hw hp).pc_issue.2
    next => cases h

theorem execSetpsw_issue {m : BitVec 8} (h : execSetpsw m s = .next t) : KeepsIssueOrRaises s t :=
  privileged_issue h fun _ h => by
    split at h <;> cases h
    rfl

theorem execJl_issue {r : Reg} (h : execJl r s = .next t) : t.issue = s.issue := by
  unfold execJl at h
  split at h
  · cases h
  · exact branchLinkIf_issue h

theorem execUnlock_issue {d c : Reg} (h : execUnlock d c s = .next t) : KeepsIssueOrRaises s t := by
  cases hl : s.lock
  · rw [execUnlock_unlocked hl] at h
    cases h
    exact .inl rfl
  · rw [execUnlock_locked hl] at h
    exact loadOrStore_issue h rfl

/-- An instruction of 16 bits raises no exception but PIE and AE: only the coprocessor instructions raise CDE (R276). -/
theorem exec_issue_of_narrow (h : exec i s = .next t) (hi : category i ≠ .wide) : KeepsIssueOrRaises s t := by
  cases i with
  | sub d _ | neg d _ | add d _ | not d _ | and d _ | xor d _ | or d _ | srl d _ | sra d _ | sll d _ | mv d _
  | addi d _ | srli d _ | srai d _ | slli d _ | mvfachi d _ | mvfaclo d _ | mvfacmi d _ | ldi8 d _ | mul d _
  | subv d _ | subx d _ | addv d _ | addx d _ =>
    cases h
    exact .inl (State.setReg_issue _ d _)
  | cmp | cmpu | cmpeq | cmpz | pcmpbz | btst | nop | trap | bra8 | jmp =>
    cases h
    exact .inl rfl
  | mulhi | mullo | mulwhi | mulwlo | machi | maclo | macwhi | macwlo | mvtachi | mvtaclo | rach | rac | mulwu1
  | macwu1 | maclh1 | msblo | sadd =>
    cases h
    exact .inl (s.writeAcc_issue _ _)
  | ldb d _ | ldub d _ | ldh d _ | lduh d _ | ld d _ | lock d _ => exact loadOrStore_issue h (State.setReg_issue _ d _)
  | stb | sth | st => exact loadOrStore_issue h rfl
  | ldPost d x => exact withUpdate_issue h ((State.setReg_issue _ x _).trans (s.setReg_issue d _))
  | stbPost _ x | sthPost _ x | stPreInc _ x | stPreDec _ x => exact withUpdate_issue h (State.setReg_issue _ x _)
  | unlock => exact execUnlock_issue h
  | bc8 | bnc8 | jc | jnc => exact .inl (branchIf_issue h)
  | bcl8 | bncl8 => exact .inl (branchLinkIf_issue h)
  | bl8 =>
    cases h
    exact .inl (s.setReg_issue 14 (s.wordBase + 4))
  | jl => exact .inl (execJl_issue h)
  | sc | snc => exact skipPartnerIf_issue h
  | mvfc => exact .inl (execMvfc_issue h)
  | mvtc => exact execMvtc_issue h
  | setpsw => exact execSetpsw_issue h
  | clrpsw | rte =>
    refine privileged_issue h fun _ h => ?_
    cases h
    rfl
  | _ => exact absurd rfl hi

/-! ## Pairs with an exception (R281) -/

/-- R74: no member of a pair is a 32-bit instruction. -/
theorem upper_narrow_of_pairAllowed (h : pairAllowed a b = true) : category a ≠ .wide := by
  intro hw
  simp [pairAllowed, hw] at h

/-- An upper member that aborts its pair has entered PIE or AE. -/
theorem raised_of_aborted (hab : pairAllowed a b = true) (h : exec a { s with issue := .paired } = .next t)
    (ht : t.issue = .aborted) :
    ∃ k, (k = .pie ∨ k = .ae) ∧ t = (State.eitEntry { s with issue := .paired } k s.pc).abortPair := by
  obtain hkept | hcancel | hraised := exec_issue_of_narrow h (upper_narrow_of_pairAllowed hab)
  · cases hkept.symm.trans ht
  · cases hcancel.symm.trans ht
  · exact hraised

/-- A pair whose upper member aborts it is that member's exception alone. -/
theorem runPair_entered_of_aborted (b : Instr) {k : Eit} (hs : s.issue = .alone)
    (h : exec a { s with issue := .paired } =
      .next (State.eitEntry { s with issue := .paired } k s.pc).abortPair) :
    ∃ t, runPair a b s = .next t ∧ Entered s t k s.pc ∧ t.pc = s.eitVector k := by
  refine ⟨_, runPair_alone b h (.inl rfl), ?_, rfl⟩
  apply Leaves.withoutStore
  case hregs => exact fun p => State.readStore_congr rfl rfl rfl p
  case hissue => exact hs.symm
  all_goals rfl

/-- TRAP in a pair saves the address of the word after the pair (R225). -/
theorem State.trap_bpc_in_pair (hs : s.issue ≠ .alone) :
    s.fallThrough 2 &&& 0xFFFFFFFE = BitVec.ofNat 32 (s.wordStart + 4) := by
  have heven : (s.wordStart + 4) % 2 = 0 := by
    unfold State.wordStart
    omega
  rw [State.fallThrough_eq_ite, if_neg hs, and_evenMask_eq_ofNat, BitVec.toNat_ofNat]
  apply BitVec.eq_of_toNat_eq
  simp only [BitVec.toNat_ofNat]
  omega

/-- A pair with TRAP as upper member is TRAP's entry with the writes of the partner, which TRAP shares no cell with. -/
theorem runPair_of_trap {n : BitVec 4} {ta tb : State} (hta : exec (.trap n) { s with issue := .paired } = .next ta)
    (hb : exec b { s with issue := .paired } = .next tb) :
    ∃ t, runPair (.trap n) b s = .next t ∧ t.pc = s.eitVector (.trap n) ∧ t.bpc = BitVec.ofNat 32 (s.wordStart + 4) ∧
      { t.psw with c := false } = pswAfterEntry s.psw ∧ (writesC b = false → t.psw.c = false) ∧
      (∀ p, t.readStore p = tb.readStore p) ∧ t.acc0 = tb.acc0 ∧ t.acc1 = tb.acc1 := by
  obtain ⟨hpc, -, -, -, -, -, hbpc, -, -, hpsw⟩ := mergePair_frame (.trap n) b s ta tb
  have hmerge (hi : ta.issue = .paired) := runPair_merges hta hi hb
  cases hta
  refine ⟨_, hmerge rfl, hpc, ?_, hpsw, fun hc => mergePair_c_of_not_writes hc s _ tb, fun p => ?_,
    accBits_mergePair_of_idle _ hb .a0 rfl, accBits_mergePair_of_idle _ hb .a1 rfl⟩
  · exact hbpc.trans (State.trap_bpc_in_pair Issue.noConfusion)
  · rw [readStore_settle]
    exact readStore_mergePair_of_idle hb rfl p (State.readStore_congr rfl rfl rfl p)

end Sys2Proof.Machine
end

section
/-!
The statements of the families of 60_exceptions.md and 70_reset_and_hazards.md.
-/

namespace Sys2Proof.Machine

/-- Settles O56: a step runs an instruction, a pair or an entry, and each isolates the control state. -/
theorem userModeIsolation : Obligations.user_mode_isolation := by
  unfold Obligations.user_mode_isolation
  intro s t hp hr h
  obtain ⟨hevb, hw, hhidden, hcontrol⟩ := step_isolated hp hr h
  refine ⟨hevb, hw, fun hsm => ?spi, fun hsm => ?spu, hcontrol⟩
  case spi =>
    have hcell : s.passBoundary.hiddenStack = .spi := if_pos hsm
    rwa [hcell] at hhidden
  case spu =>
    have hcell : s.passBoundary.hiddenStack = .spu := if_neg (by simp [hsm])
    rwa [hcell] at hhidden

/-- Settles O11: EI is asked first, then CPI, and where neither is accepted the boundary is quiet. -/
theorem interruptsAtBoundaries : Obligations.interrupts_at_boundaries := by
  unfold Obligations.interrupts_at_boundaries
  intro s hr
  refine ⟨fun n hn hie => ?external, fun hei hce hcpi => ?coprocessor, fun hei hno => ?none⟩
  case external => exact step_interrupted hr (State.acceptedInterrupt_ei hn hie)
  case coprocessor =>
    refine step_interrupted hr ?_
    rw [State.acceptedInterrupt_no_ei hei, s.cpiRequested_iff.2 hcpi, hce]
    rfl
  case none =>
    refine step_quiet ⟨hr, ?_⟩
    have hcpi : (s.cpiRequested && s.psw.ce) = false := by
      obtain hce | ⟨hoffer, hquiet⟩ := hno
      · rw [hce, Bool.and_false]
      · rw [State.cpiRequested_eq_false hoffer hquiet, Bool.false_and]
    rw [State.acceptedInterrupt_no_ei hei, hcpi]
    rfl

/-- Settles O13: an entry is EVB's upper half, a slot of its own, and two 0 bits. -/
theorem vectorEntries : Obligations.vector_entries := by
  unfold Obligations.vector_entries
  intro s
  exact ⟨s.resetEvent_pc, s.readEvb_getMsbD_zero, fun k _ hj => s.eitVector_getMsbD k hj, s.eitVector_aligned,
    fun _ _ => State.eitVector_injective⟩

/-- Settles O17: each of the four is `privileged` of some effect. -/
theorem privilegedInstructions : Obligations.privileged_instructions := by
  unfold Obligations.privileged_instructions
  intro s cr r m hp
  exact ⟨raises_pie_of_privileged rfl hp, raises_pie_of_privileged rfl hp, raises_pie_of_privileged rfl hp,
    raises_pie_of_privileged rfl hp⟩

/-- Settles O19: each form is one guarded access, UNLOCK where LOCK = 1. -/
theorem userAccessRefused : Obligations.user_access_refused := by
  unfold Obligations.user_access_refused
  intro s d c q k hp
  refine ⟨fun h => ?byte, fun h ha => ?half, fun h ha => ?word, refused_of_denied rfl hp, refused_of_denied rfl hp,
    fun h => ?disp⟩
  case byte =>
    exact ⟨refused_of_denied_byte rfl hp h, refused_of_denied_byte rfl hp h, refused_of_denied_byte rfl hp h,
      refused_of_denied_byte rfl hp h⟩
  case half =>
    exact ⟨refused_of_denied rfl hp h ha, refused_of_denied rfl hp h ha, refused_of_denied rfl hp h ha,
      refused_of_denied rfl hp h ha⟩
  case word =>
    exact ⟨refused_of_denied rfl hp h ha, refused_of_denied rfl hp h ha, refused_of_denied rfl hp h ha,
      refused_of_denied rfl hp h ha, fun hl => refused_of_denied (execUnlock_locked hl d c) hp h ha⟩
  case disp =>
    exact ⟨refused_of_denied_byte rfl hp h, refused_of_denied_byte rfl hp h, refused_of_denied_byte rfl hp h,
      refused_of_denied_byte rfl hp h, refused_of_denied_byte rfl hp h,
      fun ha => ⟨refused_of_denied rfl hp h ha, refused_of_denied rfl hp h ha, refused_of_denied rfl hp h ha⟩,
      fun ha => ⟨refused_of_denied rfl hp h ha, refused_of_denied rfl hp h ha⟩⟩

/-- Settles O60: an aborted upper member is the whole step; TRAP's entry is merged with the partner's writes. -/
theorem pairExceptions : Obligations.pair_exceptions := by
  unfold Obligations.pair_exceptions
  intro a b s ta tb hs hab
  refine ⟨fun ha hi => ?aborted, fun n hn hb => ?trap⟩
  case aborted =>
    obtain ⟨k, hk, rfl⟩ := raised_of_aborted hab ha hi
    obtain ⟨t, ht, hentered, hpc⟩ := runPair_entered_of_aborted b hs ha
    exact ⟨t, k, ht, hk, State.eitEntry_abortPair_entered { s with issue := .paired } k s.pc, hentered, hpc⟩
  case trap =>
    subst hn
    exact runPair_of_trap rfl hb

/-- Settles O14. -/
theorem eitEntry : Obligations.eit_entry := State.eitEntry_entered

/-- Settles O12: the step is the reset event, which keeps memory and the coprocessors. -/
theorem resetEvent : Obligations.reset_event := by
  unfold Obligations.reset_event
  intro s hr
  exact ⟨_, step_reset hr, rfl, rfl, rfl, rfl, rfl, rfl, rfl, rfl, rfl, rfl⟩

end Sys2Proof.Machine
end
